-- ==== Sys2Proof/Word.lean ====
section
/-! DEFINITION. The two data widths of the Am1601 (R7): bytes of memory and ports, words of registers and addresses. -/

namespace Sys2Proof

/-- An 8-bit byte: the unit of memory and of the I/O ports (R7, R70, R81). -/
abbrev Byte := BitVec 8

/-- A 16-bit word: stack entries, registers, memory and port addresses (R7). -/
abbrev Word := BitVec 16

end Sys2Proof
end

