-- ==== Sys2Proof/Config.lean ====
section
/-! DEFINITION. What an implementation or platform fixes (the parameters of R8), and the free values of the spec. -/

namespace Sys2Proof

/-- The parameters of R8 that are numbers or switches. `INIT_STATE`, `IO` and `EDAC` are inputs of the host
and stand in the state (`HostEnv`); `MEM_BYTES` is 2 to 65536 (R8, see `Config.legal`). -/
structure Config where
  /-- `MEM_BYTES`: the number of bytes of memory fitted, from address 0 (R8, R70). -/
  memBytes : Nat
  /-- `HAS_EMULATE`: whether EMULATE is implemented (R8, R9). -/
  hasEmulate : Bool
  /-- `INT_SETS_I_WHEN_MASKED`: whether a masked interrupt request sets I (R8, R337). -/
  intSetsIWhenMasked : Bool
  /-- `X_BITS`: what FLAGS bits 9 and 8 read as (R8, R53). -/
  xBits : BitVec 2
  deriving DecidableEq, Repr

/-- The defaults that R8 recommends. -/
def Config.default : Config :=
  { memBytes := 65536, hasEmulate := true, intSetsIWhenMasked := false, xBits := 0#2 }

/-- DESIGN CHOICE (entry 8), safe: `UNSPEC16` of R12, the word that shifts into register 15 of a stack at a pop
that does not refill (R24, R26). It has no body: nothing can be proved of it. Applied to the state's counter
of free values, so that each use is a fresh one. -/
opaque Config.unspec16 : Nat → Word

/-- DESIGN CHOICE (entry 7), safe: what the host answers to a port read that the script of answers does not
cover (R82: it may return a different value each time). No body, applied to the counter of free values. -/
opaque Config.portAnswer : Nat → Word

end Sys2Proof
end

