-- ==== Sys2Proof/Syntax.lean ====
section
/-! DEFINITION. The instructions of the Am1601: one constructor per row of the opcode table (R110, R129), the
operands already read as what they name: condition codes, registers, flags, immediates, addresses. -/

namespace Sys2Proof

/-- The sixteen condition codes of R41, in code order. CS is also HI, CC is also LS. -/
inductive Cond where
  | eq | ne | cs | cc | mi | pl | vs | vc | hs | lo | ge | lt | gt | le | al | nef
  deriving DecidableEq, Repr

/-- The ten registers that PUSHPS, POPPS, PUSHRS and POPRS can name (R52), in selector order. -/
inductive Reg where
  | pc | ppc | hp | flags | psp | psc | rsp | rsc | ea | rr
  deriving DecidableEq, Repr

/-- The eight flags that SET and CLEAR can name (R112), in selector order. -/
inductive FlagSel where
  | c | z | s | o | e | i | ie | ee
  deriving DecidableEq, Repr

/-- The instructions. A suffix `U`, `S` or `P` tells the uN, sN and stack-operand forms of one mnemonic apart;
operands stand in the order of the assembler (R120). -/
inductive Instr where
  -- format S: a 12-bit operand in the instruction (R102)
  | sJmp (abc : BitVec 12)
  | sJsr (abc : BitVec 12)
  | sLoad (abc : BitVec 12)
  | sStore (abc : BitVec 12)
  | sBr (efg : BitVec 12)
  | sBsr (efg : BitVec 12)
  -- loads of a number (R236, R240, R241)
  | cNLoad (nnnn : Word) (cond : Cond)
  | uNLoad (n : Byte)
  | sNLoad (n : Byte)
  -- format L: a condition code and a 16-bit operand (R109)
  | cJsr (nnnn : Word) (cond : Cond)
  | cJmp (nnnn : Word) (cond : Cond)
  | cLoad (nnnn : Word) (cond : Cond)
  | cStore (nnnn : Word) (cond : Cond)
  | cLoadB (nnnn : Word) (cond : Cond)
  | cStoreB (nnnn : Word) (cond : Cond)
  -- format C: a condition code (R108)
  | cpJsr (cond : Cond)
  | cpJmp (cond : Cond)
  | cpLoad (cond : Cond)
  | cpStore (cond : Cond)
  | cpLoadB (cond : Cond)
  | cpStoreB (cond : Cond)
  | cRts (cond : Cond)
  | cpBsr (cond : Cond)
  -- format B: condition code and 8-bit displacement (R107)
  | cBr (ee : Byte) (cond : Cond)
  -- format I, uN forms (R105)
  | addU (n : Byte)
  | adcU (n : Byte)
  | subU (n : Byte)
  | sbcU (n : Byte)
  | rsubU (n : Byte)
  | rsbcU (n : Byte)
  | andU (n : Byte)
  | orU (n : Byte)
  | eorU (n : Byte)
  | rcmpU (n : Byte)
  | cmpU (n : Byte)
  | maskU (n : Byte)
  | tstU (n : Byte)
  -- format I, sN forms (R105)
  | addS (n : Byte)
  | adcS (n : Byte)
  | subS (n : Byte)
  | sbcS (n : Byte)
  | rsubS (n : Byte)
  | rsbcS (n : Byte)
  | andS (n : Byte)
  | orS (n : Byte)
  | eorS (n : Byte)
  | rcmpS (n : Byte)
  | cmpS (n : Byte)
  | tstS (n : Byte)
  -- format G, group #C0: stack-operand forms and operand-less ALU instructions (R111)
  | addP
  | adcP
  | rsubP
  | rsbcP
  | subP
  | sbcP
  | andP
  | orP
  | eorP
  | nop
  | cmpP
  | rcmpP
  | maskP
  | cpl
  | tstP
  | neg
  -- format G, group #C1: the stack group (R190)
  | dupl
  | del
  | swap
  | sot
  | rtu
  | rtd
  | ptor
  | rtop
  | idx
  | xrp
  -- format G, group #C2: the shift group (R111)
  | lsl
  | lsr
  | rol
  | ror
  | asr
  -- format Q: a register or flag selector (R112)
  | pushPs (qq : Reg)
  | popPs (qq : Reg)
  | pushRs (qq : Reg)
  | popRs (qq : Reg)
  | set (m : FlagSel)
  | clear (m : FlagSel)
  -- input and output (R290)
  | cIn (nnnn : Word) (cond : Cond)
  | cOut (nnnn : Word) (cond : Cond)
  | cInB (nnnn : Word) (cond : Cond)
  | cOutB (nnnn : Word) (cond : Cond)
  | cpIn (cond : Cond)
  | cpOut (cond : Cond)
  | cpInB (cond : Cond)
  | cpOutB (cond : Cond)
  -- IPS support and system (R311 to R317), and FLAG (R202), XB (R167)
  | emulate (cond : Cond)
  | execute (cond : Cond)
  | prepare (cond : Cond)
  | refresh (cond : Cond)
  | dfx
  | twoBlit
  | jppc
  | xb
  | flag (cond : Cond)
  deriving DecidableEq, Repr

end Sys2Proof
end

