-- ==== Sys2Proof/Decode.lean ====
section
/-! DEFINITION. Decoding and encoding (R100 to R119, R129): bytes in address order to an instruction or a named
error, and an instruction to its bytes. The helpers for bytes, nibbles and byte order stand here too. -/

namespace Sys2Proof

/-! ## Bytes, nibbles, byte order -/

/-- Bits 3:0 of a byte. -/
def loNibble (b : Byte) : BitVec 4 := b.extractLsb' 0 4

/-- Bits 7:4 of a byte. -/
def hiNibble (b : Byte) : BitVec 4 := b.extractLsb' 4 4

/-- The LSB of a word (R10). -/
def lowByte (w : Word) : Byte := w.extractLsb' 0 8

/-- The MSB of a word (R10). -/
def highByte (w : Word) : Byte := w.extractLsb' 8 8

/-- The word whose byte at the lower address is `lo` and at the higher address `hi` (R71). -/
def wordOfBytes (lo hi : Byte) : Word := hi ++ lo

/-! ## Selector codes -/

/-- The 4-bit code of a condition (R41). -/
def Cond.code : Cond → BitVec 4
  | .eq => 0x0 | .ne => 0x1 | .cs => 0x2 | .cc => 0x3
  | .mi => 0x4 | .pl => 0x5 | .vs => 0x6 | .vc => 0x7
  | .hs => 0x8 | .lo => 0x9 | .ge => 0xA | .lt => 0xB
  | .gt => 0xC | .le => 0xD | .al => 0xE | .nef => 0xF

/-- The condition of a 4-bit code; all sixteen are defined (R41). -/
def Cond.ofCode (n : BitVec 4) : Cond :=
  match n.toNat with
  | 0 => .eq | 1 => .ne | 2 => .cs | 3 => .cc
  | 4 => .mi | 5 => .pl | 6 => .vs | 7 => .vc
  | 8 => .hs | 9 => .lo | 10 => .ge | 11 => .lt
  | 12 => .gt | 13 => .le | 14 => .al | _ => .nef

/-- The selector qq of a register (R52). -/
def Reg.code : Reg → BitVec 4
  | .pc => 0 | .ppc => 1 | .hp => 2 | .flags => 3 | .psp => 4
  | .psc => 5 | .rsp => 6 | .rsc => 7 | .ea => 8 | .rr => 9

/-- The register a selector names; #A to #F are not defined (R52, R114 e). -/
def Reg.ofCode (n : BitVec 4) : Option Reg :=
  match n.toNat with
  | 0 => some .pc | 1 => some .ppc | 2 => some .hp | 3 => some .flags | 4 => some .psp
  | 5 => some .psc | 6 => some .rsp | 7 => some .rsc | 8 => some .ea | 9 => some .rr
  | _ => none

/-- The selector m of a flag: its bit number in FLAGS (R112). -/
def FlagSel.code : FlagSel → BitVec 4
  | .c => 0 | .z => 1 | .s => 2 | .o => 3 | .e => 4 | .i => 5 | .ie => 6 | .ee => 7

/-- The flag a selector names; #8 to #F are not defined (R112, R114 f). -/
def FlagSel.ofCode (n : BitVec 4) : Option FlagSel :=
  match n.toNat with
  | 0 => some .c | 1 => some .z | 2 => some .s | 3 => some .o
  | 4 => some .e | 5 => some .i | 6 => some .ie | 7 => some .ee
  | _ => none

/-! ## Decoding -/

/-- Why bytes are no instruction. -/
inductive DecodeError where
  /-- The first byte is one of the 76 undefined values (R113). -/
  | undefinedOpcode (b0 : Byte)
  /-- The first byte is defined, a field of the second is not (R114). -/
  | undefinedField (b0 b1 : Byte)
  /-- The list of bytes ends inside the instruction; the machine's fetch never gives such a list. -/
  | truncated
  deriving DecidableEq, Repr

/-- The 4-byte instructions: format L, told by the first byte alone (R106). -/
def isLong (b0 : Byte) : Bool :=
  b0 == 0x60#8 || (0x80#8 ≤ b0 && b0 ≤ 0x85#8) || (0xE2#8 ≤ b0 && b0 ≤ 0xE5#8)

/-- Formats C and L: byte1 is a zero nibble and a condition code (R108, R109, R114 a). -/
def condField (b0 b1 : Byte) (mk : Cond → Instr) : Except DecodeError Instr :=
  if hiNibble b1 = 0#4 then .ok (mk (Cond.ofCode (loNibble b1))) else .error (.undefinedField b0 b1)

/-- Format G: byte1 is a sub-opcode and a zero nibble (R111, R114 b, d). -/
def groupField (b0 b1 : Byte) (i : Option Instr) : Except DecodeError Instr :=
  if loNibble b1 = 0#4 then
    match i with
    | some i => .ok i
    | none => .error (.undefinedField b0 b1)
  else .error (.undefinedField b0 b1)

/-- Format Q with a register: byte1 is qq and a zero nibble (R112, R114 b, e). -/
def regField (b0 b1 : Byte) (mk : Reg → Instr) : Except DecodeError Instr :=
  groupField b0 b1 ((Reg.ofCode (hiNibble b1)).map mk)

/-- Format Q with a flag: byte1 is m and a zero nibble (R112, R114 b, f). -/
def flagField (b0 b1 : Byte) (mk : FlagSel → Instr) : Except DecodeError Instr :=
  groupField b0 b1 ((FlagSel.ofCode (hiNibble b1)).map mk)

/-- Format Z: byte1 is #00 (R115, R114 c). -/
def bareField (b0 b1 : Byte) (i : Instr) : Except DecodeError Instr :=
  if b1 = 0x00#8 then .ok i else .error (.undefinedField b0 b1)

/-- The ALUP1 group #C0 by sub-opcode; all sixteen are defined (R111). -/
def groupC0 (sub : BitVec 4) : Option Instr :=
  match sub.toNat with
  | 0 => some .addP | 1 => some .adcP | 2 => some .rsubP | 3 => some .rsbcP
  | 4 => some .subP | 5 => some .sbcP | 6 => some .andP | 7 => some .orP
  | 8 => some .eorP | 9 => some .nop | 10 => some .cmpP | 11 => some .rcmpP
  | 12 => some .maskP | 13 => some .cpl | 14 => some .tstP | _ => some .neg

/-- The STACK group #C1 by sub-opcode; #A to #F are reserved (R111). -/
def groupC1 (sub : BitVec 4) : Option Instr :=
  match sub.toNat with
  | 0 => some .dupl | 1 => some .del | 2 => some .swap | 3 => some .sot | 4 => some .rtu
  | 5 => some .rtd | 6 => some .ptor | 7 => some .rtop | 8 => some .idx | 9 => some .xrp
  | _ => none

/-- The SHIFT group #C2 by sub-opcode; #4 to #8 and #A to #F are reserved (R111). -/
def groupC2 (sub : BitVec 4) : Option Instr :=
  match sub.toNat with
  | 0 => some .lsl | 1 => some .lsr | 2 => some .rol | 3 => some .ror | 9 => some .asr
  | _ => none

/-- First bytes #60 to #7F (R110). -/
def decode67 (b0 b1 : Byte) (nnnn : Word) : Except DecodeError Instr :=
  match b0.toNat with
  | 0x60 => condField b0 b1 (.cNLoad nnnn)
  | 0x70 => .ok (.uNLoad b1)
  | 0x71 => .ok (.sNLoad b1)
  | _ => .error (.undefinedOpcode b0)

/-- First bytes #80 to #8F (R110). -/
def decode8 (b0 b1 : Byte) (nnnn : Word) : Except DecodeError Instr :=
  match (loNibble b0).toNat with
  | 0x0 => condField b0 b1 (.cJsr nnnn)
  | 0x1 => condField b0 b1 (.cJmp nnnn)
  | 0x2 => condField b0 b1 (.cLoad nnnn)
  | 0x3 => condField b0 b1 (.cStore nnnn)
  | 0x4 => condField b0 b1 (.cLoadB nnnn)
  | 0x5 => condField b0 b1 (.cStoreB nnnn)
  | 0x8 => condField b0 b1 .cpJsr
  | 0x9 => condField b0 b1 .cpJmp
  | 0xA => condField b0 b1 .cpLoad
  | 0xB => condField b0 b1 .cpStore
  | 0xC => condField b0 b1 .cpLoadB
  | 0xD => condField b0 b1 .cpStoreB
  | 0xE => condField b0 b1 .cRts
  | 0xF => condField b0 b1 .cpBsr
  | _ => .error (.undefinedOpcode b0)

/-- First bytes #A0 to #AF: the uN forms (R105, R110). In uN MASK all of byte1 is kept, its upper nibble is
ignored by the instruction (R114, R155). -/
def decodeA (b0 b1 : Byte) : Except DecodeError Instr :=
  match (loNibble b0).toNat with
  | 0x0 => .ok (.addU b1)
  | 0x1 => .ok (.adcU b1)
  | 0x2 => .ok (.subU b1)
  | 0x3 => .ok (.sbcU b1)
  | 0x4 => .ok (.rsubU b1)
  | 0x5 => .ok (.rsbcU b1)
  | 0x6 => .ok (.andU b1)
  | 0x7 => .ok (.orU b1)
  | 0x8 => .ok (.eorU b1)
  | 0xA => .ok (.rcmpU b1)
  | 0xB => .ok (.cmpU b1)
  | 0xC => .ok (.maskU b1)
  | 0xE => .ok (.tstU b1)
  | _ => .error (.undefinedOpcode b0)

/-- First bytes #B0 to #BF: the sN forms (R105, R110). -/
def decodeB (b0 b1 : Byte) : Except DecodeError Instr :=
  match (loNibble b0).toNat with
  | 0x0 => .ok (.addS b1)
  | 0x1 => .ok (.adcS b1)
  | 0x2 => .ok (.subS b1)
  | 0x3 => .ok (.sbcS b1)
  | 0x4 => .ok (.rsubS b1)
  | 0x5 => .ok (.rsbcS b1)
  | 0x6 => .ok (.andS b1)
  | 0x7 => .ok (.orS b1)
  | 0x8 => .ok (.eorS b1)
  | 0xA => .ok (.rcmpS b1)
  | 0xB => .ok (.cmpS b1)
  | 0xE => .ok (.tstS b1)
  | _ => .error (.undefinedOpcode b0)

/-- First bytes #C0 to #CF: the three groups (R111). -/
def decodeC (b0 b1 : Byte) : Except DecodeError Instr :=
  match (loNibble b0).toNat with
  | 0x0 => groupField b0 b1 (groupC0 (hiNibble b1))
  | 0x1 => groupField b0 b1 (groupC1 (hiNibble b1))
  | 0x2 => groupField b0 b1 (groupC2 (hiNibble b1))
  | _ => .error (.undefinedOpcode b0)

/-- First bytes #D0 to #DF: register transfers, SET, CLEAR (R112). -/
def decodeD (b0 b1 : Byte) : Except DecodeError Instr :=
  match (loNibble b0).toNat with
  | 0x0 => regField b0 b1 .pushPs
  | 0x1 => regField b0 b1 .popPs
  | 0x2 => regField b0 b1 .pushRs
  | 0x3 => regField b0 b1 .popRs
  | 0x4 => flagField b0 b1 .set
  | 0x5 => flagField b0 b1 .clear
  | _ => .error (.undefinedOpcode b0)

/-- First bytes #E0 to #EF: input and output (R110). -/
def decodeE (b0 b1 : Byte) (nnnn : Word) : Except DecodeError Instr :=
  match (loNibble b0).toNat with
  | 0x2 => condField b0 b1 (.cIn nnnn)
  | 0x3 => condField b0 b1 (.cOut nnnn)
  | 0x4 => condField b0 b1 (.cInB nnnn)
  | 0x5 => condField b0 b1 (.cOutB nnnn)
  | 0xA => condField b0 b1 .cpIn
  | 0xB => condField b0 b1 .cpOut
  | 0xC => condField b0 b1 .cpInB
  | 0xD => condField b0 b1 .cpOutB
  | _ => .error (.undefinedOpcode b0)

/-- First bytes #F0 to #FF: IPS support, system, XB, FLAG (R110). -/
def decodeF (b0 b1 : Byte) : Except DecodeError Instr :=
  match (loNibble b0).toNat with
  | 0x0 => condField b0 b1 .emulate
  | 0x1 => condField b0 b1 .execute
  | 0x2 => condField b0 b1 .prepare
  | 0x6 => condField b0 b1 .refresh
  | 0x8 => bareField b0 b1 .dfx
  | 0xB => bareField b0 b1 .twoBlit
  | 0xC => bareField b0 b1 .jppc
  | 0xD => bareField b0 b1 .xb
  | 0xF => condField b0 b1 .flag
  | _ => .error (.undefinedOpcode b0)

/-- The procedure of R117 on the first two bytes; `nnnn` is the operand word of a 4-byte instruction and is not
looked at by the others. A short operand is `byte0[3:0] :: byte1` (R102). -/
def decodeWith (b0 b1 : Byte) (nnnn : Word) : Except DecodeError Instr :=
  match (hiNibble b0).toNat with
  | 0x0 => .ok (.sJmp (loNibble b0 ++ b1))
  | 0x1 => .ok (.sJsr (loNibble b0 ++ b1))
  | 0x2 => .ok (.sLoad (loNibble b0 ++ b1))
  | 0x3 => .ok (.sStore (loNibble b0 ++ b1))
  | 0x4 => .ok (.sBr (loNibble b0 ++ b1))
  | 0x5 => .ok (.sBsr (loNibble b0 ++ b1))
  | 0x6 => decode67 b0 b1 nnnn
  | 0x7 => decode67 b0 b1 nnnn
  | 0x8 => decode8 b0 b1 nnnn
  | 0x9 => .ok (.cBr b1 (Cond.ofCode (loNibble b0)))
  | 0xA => decodeA b0 b1
  | 0xB => decodeB b0 b1
  | 0xC => decodeC b0 b1
  | 0xD => decodeD b0 b1
  | 0xE => decodeE b0 b1 nnnn
  | _ => decodeF b0 b1

/-- The decoder, total on any bytes: the instruction at the head of the list and the bytes after it. -/
def decode : List Byte → Except DecodeError (Instr × List Byte)
  | b0 :: b1 :: rest =>
    if isLong b0 then
      match rest with
      | b2 :: b3 :: rest' => (decodeWith b0 b1 (wordOfBytes b2 b3)).map (·, rest')
      | _ => .error .truncated
    else (decodeWith b0 b1 0#16).map (·, rest)
  | _ => .error .truncated

/-! ## Encoding -/

/-- Format S: opcode nibble and 12-bit operand (R102). -/
def encS (op : BitVec 4) (x : BitVec 12) : List Byte := [op ++ x.extractLsb' 8 4, x.extractLsb' 0 8]

/-- Format C: opcode byte, zero nibble, condition code (R108). -/
def encC (op : Byte) (k : Cond) : List Byte := [op, 0#4 ++ k.code]

/-- Format L: as format C, then the operand word, low byte first (R109). -/
def encL (op : Byte) (n : Word) (k : Cond) : List Byte := [op, 0#4 ++ k.code, lowByte n, highByte n]

/-- Formats G and Q: opcode byte, sub-opcode or selector, zero nibble (R111, R112). -/
def encQ (op : Byte) (sub : BitVec 4) : List Byte := [op, sub ++ 0#4]

/-- The bytes of an instruction in address order (R101 to R115). -/
def encode : Instr → List Byte
  | .sJmp abc => encS 0x0 abc
  | .sJsr abc => encS 0x1 abc
  | .sLoad abc => encS 0x2 abc
  | .sStore abc => encS 0x3 abc
  | .sBr efg => encS 0x4 efg
  | .sBsr efg => encS 0x5 efg
  | .cNLoad n k => encL 0x60 n k
  | .uNLoad n => [0x70, n]
  | .sNLoad n => [0x71, n]
  | .cJsr n k => encL 0x80 n k
  | .cJmp n k => encL 0x81 n k
  | .cLoad n k => encL 0x82 n k
  | .cStore n k => encL 0x83 n k
  | .cLoadB n k => encL 0x84 n k
  | .cStoreB n k => encL 0x85 n k
  | .cpJsr k => encC 0x88 k
  | .cpJmp k => encC 0x89 k
  | .cpLoad k => encC 0x8A k
  | .cpStore k => encC 0x8B k
  | .cpLoadB k => encC 0x8C k
  | .cpStoreB k => encC 0x8D k
  | .cRts k => encC 0x8E k
  | .cpBsr k => encC 0x8F k
  | .cBr ee k => [0x9#4 ++ k.code, ee]
  | .addU n => [0xA0, n]
  | .adcU n => [0xA1, n]
  | .subU n => [0xA2, n]
  | .sbcU n => [0xA3, n]
  | .rsubU n => [0xA4, n]
  | .rsbcU n => [0xA5, n]
  | .andU n => [0xA6, n]
  | .orU n => [0xA7, n]
  | .eorU n => [0xA8, n]
  | .rcmpU n => [0xAA, n]
  | .cmpU n => [0xAB, n]
  | .maskU n => [0xAC, n]
  | .tstU n => [0xAE, n]
  | .addS n => [0xB0, n]
  | .adcS n => [0xB1, n]
  | .subS n => [0xB2, n]
  | .sbcS n => [0xB3, n]
  | .rsubS n => [0xB4, n]
  | .rsbcS n => [0xB5, n]
  | .andS n => [0xB6, n]
  | .orS n => [0xB7, n]
  | .eorS n => [0xB8, n]
  | .rcmpS n => [0xBA, n]
  | .cmpS n => [0xBB, n]
  | .tstS n => [0xBE, n]
  | .addP => encQ 0xC0 0x0
  | .adcP => encQ 0xC0 0x1
  | .rsubP => encQ 0xC0 0x2
  | .rsbcP => encQ 0xC0 0x3
  | .subP => encQ 0xC0 0x4
  | .sbcP => encQ 0xC0 0x5
  | .andP => encQ 0xC0 0x6
  | .orP => encQ 0xC0 0x7
  | .eorP => encQ 0xC0 0x8
  | .nop => encQ 0xC0 0x9
  | .cmpP => encQ 0xC0 0xA
  | .rcmpP => encQ 0xC0 0xB
  | .maskP => encQ 0xC0 0xC
  | .cpl => encQ 0xC0 0xD
  | .tstP => encQ 0xC0 0xE
  | .neg => encQ 0xC0 0xF
  | .dupl => encQ 0xC1 0x0
  | .del => encQ 0xC1 0x1
  | .swap => encQ 0xC1 0x2
  | .sot => encQ 0xC1 0x3
  | .rtu => encQ 0xC1 0x4
  | .rtd => encQ 0xC1 0x5
  | .ptor => encQ 0xC1 0x6
  | .rtop => encQ 0xC1 0x7
  | .idx => encQ 0xC1 0x8
  | .xrp => encQ 0xC1 0x9
  | .lsl => encQ 0xC2 0x0
  | .lsr => encQ 0xC2 0x1
  | .rol => encQ 0xC2 0x2
  | .ror => encQ 0xC2 0x3
  | .asr => encQ 0xC2 0x9
  | .pushPs qq => encQ 0xD0 qq.code
  | .popPs qq => encQ 0xD1 qq.code
  | .pushRs qq => encQ 0xD2 qq.code
  | .popRs qq => encQ 0xD3 qq.code
  | .set m => encQ 0xD4 m.code
  | .clear m => encQ 0xD5 m.code
  | .cIn n k => encL 0xE2 n k
  | .cOut n k => encL 0xE3 n k
  | .cInB n k => encL 0xE4 n k
  | .cOutB n k => encL 0xE5 n k
  | .cpIn k => encC 0xEA k
  | .cpOut k => encC 0xEB k
  | .cpInB k => encC 0xEC k
  | .cpOutB k => encC 0xED k
  | .emulate k => encC 0xF0 k
  | .execute k => encC 0xF1 k
  | .prepare k => encC 0xF2 k
  | .refresh k => encC 0xF6 k
  | .dfx => [0xF8, 0x00]
  | .twoBlit => [0xFB, 0x00]
  | .jppc => [0xFC, 0x00]
  | .xb => [0xFD, 0x00]
  | .flag k => encC 0xFF k

/-! ## The opcode table's words -/

/-- The four bytes, in address order, of an instruction word as the opcode table numbers its bits: byte0 is bits
15:8 and byte1 bits 7:0 of the first word (R129); the second word, bits 31:16, is `nnnn`, stored low byte
first (R71, R109). Bits above `nbits` are 0. DESIGN CHOICE (entry 14) for the numbering of the second word. -/
def tableBytes (nbits w : Nat) : List Byte :=
  let w := w % 2 ^ nbits
  [BitVec.ofNat 8 (w / 256), BitVec.ofNat 8 w, BitVec.ofNat 8 (w / 65536), BitVec.ofNat 8 (w / 16777216)]

/-- The instruction the decoder reads from a word of the opcode table. -/
def decodeTableWord (nbits w : Nat) : Option Instr :=
  match decode (tableBytes nbits w) with
  | .ok (i, _) => some i
  | .error _ => none

end Sys2Proof
end

