-- ==== Sys2Proof/Machine/State.lean ====
section
/-! DEFINITION. The state of the Am1601 as plain data (R20, R56), the reasons a step can stop, and the machine
right after reset (R57). -/

namespace Sys2Proof.Machine

/-- FLAGS (R31). Bits 9:8 hold nothing (R53), so they are no field; `Flags.toWord` and `Flags.ofWord` give the
whole register. -/
structure Flags where
  /-- C, bit 0: carry of an addition, borrow of a subtraction (R32). -/
  c : Bool
  /-- Z, bit 1 (R33). -/
  z : Bool
  /-- S, bit 2 (R34). -/
  s : Bool
  /-- O, bit 3: signed overflow (R35). -/
  o : Bool
  /-- E, bit 4: the external event's flip-flop (R36). -/
  e : Bool
  /-- I, bit 5: a maskable interrupt was taken (R37). -/
  i : Bool
  /-- IE, bit 6: interrupt enable (R38). -/
  ie : Bool
  /-- EE, bit 7: an EDAC correction happened (R39). -/
  ee : Bool
  /-- EC, bits 15:10: the EDAC error counter (R40). -/
  ec : BitVec 6
  deriving DecidableEq, Repr

/-- The sixteen registers of a stack; `e0` is the top, P0 or R0 (R21, R22). -/
structure StackRegs where
  e0 : Word
  e1 : Word
  e2 : Word
  e3 : Word
  e4 : Word
  e5 : Word
  e6 : Word
  e7 : Word
  e8 : Word
  e9 : Word
  e10 : Word
  e11 : Word
  e12 : Word
  e13 : Word
  e14 : Word
  e15 : Word
  deriving DecidableEq, Repr

/-- One of the two stacks: its registers, its pointer into the overflow area (PSP or RSP, R46, R48) and its
counter (PSC or RSC, R47, R49). -/
structure Stack where
  regs : StackRegs
  ptr : Word
  ctr : Word
  deriving DecidableEq, Repr

/-- Which stack: the parameter stack (R21) or the return stack (R22). -/
inductive StackId where
  | param | ret
  deriving DecidableEq, Repr

/-- The memory (R70): the bytes that are not the blank byte, by strictly rising address (`Memory.wf`). -/
abbrev Memory := List Host.Cell

/-- What the host presents at one instruction boundary (R12, R347). -/
structure Boundary where
  rst : Bool
  ext : Bool
  int : Bool
  deriving DecidableEq, Repr

/-- One call of a host port function with its port and the value that passed (R82). -/
inductive PortCall where
  | read8 (port : Word) (value : Byte)
  | read16 (port : Word) (value : Word)
  | write8 (port : Word) (value : Byte)
  | write16 (port : Word) (value : Word)
  deriving DecidableEq, Repr

/-- The MODEL's own fields: the host of R12 as plain data. DESIGN CHOICE (entries 4, 6, 7). -/
structure HostEnv where
  /-- What is presented at the coming boundaries; past the end, nothing (R347). -/
  boundary : List Boundary
  /-- What the EDAC oracle answers at the coming memory reads; past the end, "not corrected" (R8, R93). -/
  edac : List Bool
  /-- What the host answers to the coming port reads; past the end, a free value (R82). -/
  portIn : List Word
  /-- The port calls made, newest first (R82). -/
  portLog : List PortCall
  deriving DecidableEq, Repr

/-- The whole machine: the architectural state of R20, the parameters of R8, and the model's own fields. -/
structure State where
  /-- Program counter; `pc0` while an instruction runs (R28). -/
  pc : Word
  /-- Pseudo program counter (R44). -/
  ppc : Word
  /-- Header pointer (R45). -/
  hp : Word
  /-- FLAGS (R31). -/
  flags : Flags
  /-- Parameter stack: P0..P15, PSP, PSC. -/
  ps : Stack
  /-- Return stack: R0..R15, RSP, RSC. -/
  rs : Stack
  /-- EDAC error address (R51). -/
  ea : Word
  /-- Refresh register (R50). -/
  rr : Word
  /-- Memory (R70). -/
  mem : Memory
  /-- The parameters of R8; no step changes them (entry 3). -/
  cfg : Config
  /-- The model's own: the host (R12). -/
  env : HostEnv
  /-- The model's own: how many free values were used (entry 8). -/
  free : Nat
  deriving DecidableEq, Repr

/-- Why the machine stops with a fault. -/
inductive Fault where
  /-- Any memory access, raised by `memRead8`, `memRead16`, `memWrite8`, `memWrite16`: the address is at or above
  `MEM_BYTES` (R70, D15). Safe: the spec gives no successor. -/
  | absentMemory (addr : Word)
  deriving DecidableEq, Repr

/-- Why a step is refused: the spec gives no successor state ("refuse", R12). Every one is safe. -/
inductive Refusal where
  /-- Raised by an arm of `exec` only: the instruction has no meaning in the model yet. Safe. -/
  | notModelled (mnemonic : String)
  /-- Raised by the fetch: the bytes are an undefined encoding (R113, R114; D21, D22). Safe. -/
  | undefinedEncoding (e : DecodeError)
  /-- Raised by any word access to memory at an odd address (R77, D13). Safe. -/
  | oddWordAccess (addr : Word)
  /-- Raised by a word access to an odd port (R84, D16). Safe. -/
  | oddPortAccess (port : Word)
  /-- Raised by SET of I or EE: "unpredictable results" (R207, D30). Safe. -/
  | unpredictableSet (m : FlagSel)
  /-- Raised by EMULATE on a device without it (R9, R313, D34). Safe. -/
  | emulateAbsent
  deriving DecidableEq, Repr

/-- Sixteen registers at #0000. DESIGN CHOICE (entry 1): the spec gives no power-on value. -/
def StackRegs.zero : StackRegs :=
  { e0 := 0#16, e1 := 0#16, e2 := 0#16, e3 := 0#16, e4 := 0#16, e5 := 0#16, e6 := 0#16, e7 := 0#16
    e8 := 0#16, e9 := 0#16, e10 := 0#16, e11 := 0#16, e12 := 0#16, e13 := 0#16, e14 := 0#16, e15 := 0#16 }

/-- The machine right after the reset that accompanies power-on (R57): PC, PSC, RSC and RR are #0000 by the spec;
every other register is #0000 by DESIGN CHOICE (entry 1), memory lists nothing (entry 2), the parameters are
the defaults of R8 (entry 3), and the host's scripts are empty (entries 4, 6, 7). -/
def State.reset : State :=
  { pc := 0#16
    ppc := 0#16
    hp := 0#16
    flags := { c := false, z := false, s := false, o := false, e := false, i := false, ie := false, ee := false,
               ec := 0#6 }
    ps := { regs := StackRegs.zero, ptr := 0#16, ctr := 0#16 }
    rs := { regs := StackRegs.zero, ptr := 0#16, ctr := 0#16 }
    ea := 0#16
    rr := 0#16
    mem := []
    cfg := Config.default
    env := { boundary := [], edac := [], portIn := [], portLog := [] }
    free := 0 }

end Sys2Proof.Machine
end

