-- ==== Sys2Proof/Machine/Flags.lean ====
section
/-! DEFINITION. FLAGS as a whole register (R53), the condition codes (R41), and every flag computation of the
arithmetic, logical and shift instructions (R140 to R143, R149 to R161). -/

namespace Sys2Proof.Machine

/-! ## FLAGS as a register -/

/-- FLAGS as read by PUSHPS and PUSHRS: `EC :: X_BITS :: EE :: IE :: I :: E :: O :: S :: Z :: C` (R53). -/
def Flags.toWord (x : BitVec 2) (f : Flags) : Word :=
  f.ec ++ x ++ BitVec.ofBool f.ee ++ BitVec.ofBool f.ie ++ BitVec.ofBool f.i ++ BitVec.ofBool f.e
    ++ BitVec.ofBool f.o ++ BitVec.ofBool f.s ++ BitVec.ofBool f.z ++ BitVec.ofBool f.c

/-- FLAGS as written by POPPS and POPRS: bits 9:8 of the word are discarded (R53). -/
def Flags.ofWord (w : Word) : Flags :=
  { c := w.getLsbD 0, z := w.getLsbD 1, s := w.getLsbD 2, o := w.getLsbD 3, e := w.getLsbD 4, i := w.getLsbD 5
    ie := w.getLsbD 6, ee := w.getLsbD 7, ec := w.extractLsb' 10 6 }

/-- FLAGS with one of the eight flags set to a value (R207, R208). -/
def Flags.put (m : FlagSel) (b : Bool) (f : Flags) : Flags :=
  match m with
  | .c => { f with c := b }
  | .z => { f with z := b }
  | .s => { f with s := b }
  | .o => { f with o := b }
  | .e => { f with e := b }
  | .i => { f with i := b }
  | .ie => { f with ie := b }
  | .ee => { f with ee := b }

/-! ## Condition codes -/

/-- `cond(cc)` of R41, on the FLAGS found before the instruction changes anything (R42). -/
def Flags.holds (k : Cond) (f : Flags) : Bool :=
  match k with
  | .eq => f.z
  | .ne => !f.z
  | .cs => f.c
  | .cc => !f.c
  | .mi => f.s
  | .pl => !f.s
  | .vs => f.o
  | .vc => !f.o
  | .hs => f.z || f.c
  | .lo => !f.z && !f.c
  | .ge => f.s == f.o
  | .lt => f.s != f.o
  | .gt => !f.z && (f.s == f.o)
  | .le => f.z || (f.s != f.o)
  | .al => true
  | .nef => !f.e

/-! ## Results of the arithmetic and logic unit -/

/-- A 16-bit result with the four flags that go with it. -/
structure AluResult where
  value : Word
  c : Bool
  z : Bool
  s : Bool
  o : Bool
  deriving DecidableEq, Repr

/-- C, Z, S and O from a result; the other flags stay (R43). -/
def Flags.withResult (r : AluResult) (f : Flags) : Flags :=
  { f with c := r.c, z := r.z, s := r.s, o := r.o }

/-- A result with S its bit 15 and Z whether it is zero, the common case of R140 to R143. -/
def resultOf (r : Word) (c o : Bool) : AluResult :=
  { value := r, c := c, z := r == 0#16, s := r.msb, o := o }

/-- Addition with carry-in (R140). -/
def add (a b : Word) (cin : Bool) : AluResult :=
  let sum := a.toNat + b.toNat + cin.toNat
  let r := BitVec.ofNat 16 sum
  resultOf r (decide (65536 ≤ sum)) (a.msb == b.msb && r.msb != a.msb)

/-- Subtraction `a - b - borrow` (R141): C is a true borrow, O is the exact difference outside the signed
range (R142). -/
def sub (a b : Word) (borrow : Bool) : AluResult :=
  let diff : Int := a.toInt - b.toInt - borrow.toNat
  resultOf (a - b - BitVec.ofNat 16 borrow.toNat) (decide (a.toNat < b.toNat + borrow.toNat))
    (decide (diff < -32768) || decide (32767 < diff))

/-- Logical results reset C and O (R143). -/
def logic (r : Word) : AluResult := resultOf r false false

/-- One's complement; C as the manual prints it, doubtful (R151, U30; entry 40). -/
def complement (a : Word) : AluResult := resultOf (~~~a) (a != 0x0001#16) false

/-- Two's complement; O is reset even for #8000 (R156). -/
def negate (a : Word) : AluResult := resultOf (0#16 - a) (a != 0#16) false

/-- Logical shift left by one (R153). -/
def shiftLeft (a : Word) : AluResult := resultOf (a.extractLsb' 0 15 ++ 0#1) a.msb false

/-- Logical shift right by one; S is bit 15 of the result, always 0 (R154). -/
def shiftRight (a : Word) : AluResult := resultOf (0#1 ++ a.extractLsb' 1 15) (a.getLsbD 0) false

/-- Arithmetic shift right by one (R149). -/
def shiftRightArith (a : Word) : AluResult :=
  resultOf (BitVec.ofBool a.msb ++ a.extractLsb' 1 15) (a.getLsbD 0) false

/-- Rotate left through carry by one (R160). -/
def rotateLeft (a : Word) (cin : Bool) : AluResult :=
  resultOf (a.extractLsb' 0 15 ++ BitVec.ofBool cin) a.msb false

/-- Rotate right through carry by one (R161). -/
def rotateRight (a : Word) (cin : Bool) : AluResult :=
  resultOf (BitVec.ofBool cin ++ a.extractLsb' 1 15) (a.getLsbD 0) false

/-- The one-bit mask `1 << n`; Z is always 0 (R155). -/
def maskOf (n : BitVec 4) : AluResult := logic (1#16 <<< n.toNat)

/-- The two bytes of a word exchanged (R167). -/
def exchangeBytes (a : Word) : Word := lowByte a ++ highByte a

end Sys2Proof.Machine
end

