-- ==== Sys2Proof/Machine/Memory.lean ====
section
/-! DEFINITION. The memory as a sorted list of its bytes that are not blank: one canonical form, so that equal
memories are equal lists. Addresses here are plain numbers; the 16-bit accesses stand in `Ops`. -/

namespace Sys2Proof.Machine

/-- What an address that is not listed reads as. DESIGN CHOICE (entry 2), unsafe: the spec gives no power-on
contents of memory (R57). -/
def Memory.blank : Byte := 0#8

/-- The byte at an address (R72). -/
def Memory.read : Memory → Nat → Byte
  | [], _ => Memory.blank
  | (b, w) :: rest, a => if a < b then Memory.blank else if a = b then w else Memory.read rest a

/-- A cell in front of a memory, unless it holds the blank byte. -/
def Memory.cons (a : Nat) (v : Byte) (m : Memory) : Memory :=
  if v = Memory.blank then m else (a, v) :: m

/-- The memory with one byte replaced (R74). -/
def Memory.write : Memory → Nat → Byte → Memory
  | [], a, v => Memory.cons a v []
  | (b, w) :: rest, a, v =>
    if a < b then Memory.cons a v ((b, w) :: rest)
    else if a = b then Memory.cons a v rest
    else (b, w) :: Memory.write rest a v

/-- Addresses strictly rising from `low` on and below 65536, and no blank byte listed. -/
def Memory.wfFrom (low : Nat) : Memory → Bool
  | [] => true
  | (a, v) :: rest => decide (low ≤ a) && decide (a < 65536) && decide (v ≠ Memory.blank) && Memory.wfFrom (a + 1) rest

/-- The canonical form of a memory. -/
def Memory.wf (m : Memory) : Bool := Memory.wfFrom 0 m

/-- The word at an even address: the byte at the higher address is the more significant one (R71, R73). -/
def Memory.readWord (m : Memory) (a : Nat) : Word := wordOfBytes (m.read a) (m.read (a + 1))

/-- The memory with one word replaced, low byte at the lower address (R71, R75). -/
def Memory.writeWord (m : Memory) (a : Nat) (v : Word) : Memory :=
  (m.write a (lowByte v)).write (a + 1) (highByte v)

end Sys2Proof.Machine
end

