-- ==== Sys2Proof/Machine/Operands.lean ====
section
/-! DEFINITION. The operand forms (R105, R116, R230, R260): how instruction bits become words, addresses and
jump targets. -/

namespace Sys2Proof.Machine

/-- Whether bit 0 of an address is set (R29, R77, R84). -/
def isOdd (w : Word) : Bool := w.getLsbD 0

/-- A uN operand: zero-extended (R116). -/
def operandU (n : Byte) : Word := n.setWidth 16

/-- An sN operand: sign-extended (R116). -/
def operandS (n : Byte) : Word := n.signExtend 16

/-- The operand of uN MASK: the low nibble; the upper one is ignored (R116, R155). -/
def operandMask (n : Byte) : BitVec 4 := n.extractLsb' 0 4

/-- A short absolute address abc: zero-extended, #0000 to #0FFF (R116, R230 b). -/
def shortAddr (abc : BitVec 12) : Word := abc.setWidth 16

/-- The address after a 2-byte instruction, modulo 2^16 (R28, R30). -/
def after2 (pc : Word) : Word := pc + 2#16

/-- The address after a 4-byte instruction, modulo 2^16 (R28, R30). -/
def after4 (pc : Word) : Word := pc + 4#16

/-- Target of sBR and sBSR: `pc0 + 2 + sext_12(efg)` (R260 d). -/
def shortTarget (pc : Word) (efg : BitVec 12) : Word := pc + 2#16 + efg.signExtend 16

/-- Target of cBR: `pc0 + 2 + sext_8(ee)` (R260 e). -/
def branchTarget (pc : Word) (ee : Byte) : Word := pc + 2#16 + ee.signExtend 16

/-- Target of cpBSR: `pc0 + 4 + P0` (R260 f, R265, D29). -/
def stackTarget (pc d : Word) : Word := pc + 4#16 + d

end Sys2Proof.Machine
end

