-- ==== Sys2Proof/Machine/Ops.lean ====
section
/-! DEFINITION. The named operations every meaning is written with: registers, memory with EDAC reports, the two
stacks with spill and refill, ports, PC, and the taking of traps, interrupt and reset. -/

namespace Sys2Proof.Machine

/-! ## How an instruction can end early -/

/-- A stop that is no event of the machine. -/
inductive Halt where
  | fault (f : Fault)
  | refused (r : Refusal)
  deriving DecidableEq, Repr

/-- The three synchronous traps (R330). -/
inductive Trap where
  | returnUnderflow
  | paramUnderflow
  | pcOdd
  deriving DecidableEq, Repr

/-- An instruction is abandoned: a trap is raised, or the machine halts. -/
inductive Stop where
  | trap (t : Trap)
  | halt (h : Halt)
  deriving DecidableEq, Repr

/-- The effect of an instruction, or why it is abandoned. -/
abbrev Run (α : Type) := Except Stop α

/-- An operation that cannot raise a trap, inside an instruction. -/
def orHalt {α : Type} : Except Halt α → Run α
  | .ok a => .ok a
  | .error h => .error (.halt h)

/-- A halt as an outcome of the step. -/
def Halt.outcome : Halt → Host.Outcome State Fault Refusal
  | .fault f => .fault f
  | .refused r => .refused r

/-- A state reached, or a halt, as an outcome of the step. -/
def settle : Except Halt State → Host.Outcome State Fault Refusal
  | .ok s => .next s
  | .error h => h.outcome

/-! ## Updates of the state -/

/-- The state with another program counter, unchecked: sequential advance and vectors only (R29). -/
def State.goto (s : State) (a : Word) : State := { s with pc := a }

/-- PC moved past a 2-byte instruction (R28). -/
def State.next2 (s : State) : State := s.goto (after2 s.pc)

/-- PC moved past a 4-byte instruction (R28). -/
def State.next4 (s : State) : State := s.goto (after4 s.pc)

/-- One of the two stacks. -/
def State.stack (s : State) : StackId → Stack
  | .param => s.ps
  | .ret => s.rs

/-- One of the two stacks replaced. -/
def State.setStack (s : State) (k : StackId) (st : Stack) : State :=
  match k with
  | .param => { s with ps := st }
  | .ret => { s with rs := st }

/-- P0 (R21). -/
def State.p0 (s : State) : Word := s.ps.regs.e0

/-- P1 (R21). -/
def State.p1 (s : State) : Word := s.ps.regs.e1

/-- P2 (R21). -/
def State.p2 (s : State) : Word := s.ps.regs.e2

/-- R0 (R22). -/
def State.r0 (s : State) : Word := s.rs.regs.e0

/-- P0 replaced in place: no counter, no overflow area (R27). -/
def State.setP0 (s : State) (v : Word) : State :=
  { s with ps := { s.ps with regs := { s.ps.regs with e0 := v } } }

/-- P0 and P1 replaced in place (R27). -/
def State.setP01 (s : State) (v0 v1 : Word) : State :=
  { s with ps := { s.ps with regs := { s.ps.regs with e0 := v0, e1 := v1 } } }

/-- P0, P1 and P2 replaced in place (R27). -/
def State.setP012 (s : State) (v0 v1 v2 : Word) : State :=
  { s with ps := { s.ps with regs := { s.ps.regs with e0 := v0, e1 := v1, e2 := v2 } } }

/-- R0 replaced in place (R27). -/
def State.setR0 (s : State) (v : Word) : State :=
  { s with rs := { s.rs with regs := { s.rs.regs with e0 := v } } }

/-- FLAGS replaced. -/
def State.setFlags (s : State) (f : Flags) : State := { s with flags := f }

/-- C, Z, S, O from a result (R43). -/
def State.withResult (s : State) (r : AluResult) : State := s.setFlags (s.flags.withResult r)

/-- Z alone (R33). -/
def State.setZ (s : State) (b : Bool) : State := s.setFlags { s.flags with z := b }

/-- PPC replaced (R44). -/
def State.setPpc (s : State) (v : Word) : State := { s with ppc := v }

/-- HP replaced (R45). -/
def State.setHp (s : State) (v : Word) : State := { s with hp := v }

/-- RR replaced (R50). -/
def State.setRr (s : State) (v : Word) : State := { s with rr := v }

/-- Whether a condition holds on the present FLAGS (R41, R42). -/
def State.cond (s : State) (k : Cond) : Bool := s.flags.holds k

/-! ## Memory accesses -/

/-- The EDAC oracle is asked about a read at `a` (R93): a correction sets EE, counts EC up modulo 64 (R40) and
loads EA. An exhausted script answers "not corrected", the default of R8 (entry 6). -/
def State.edacReport (s : State) (a : Word) : State :=
  match s.env.edac with
  | [] => s
  | b :: rest =>
    { s with
      env := { s.env with edac := rest }
      flags := if b then { s.flags with ee := true, ec := s.flags.ec + 1#6 } else s.flags
      ea := if b then a else s.ea }

/-- `MemRead(addr, 1)` (R72): the byte and the state after the report. Absent memory faults (R70, entry 12). -/
def memRead8 (a : Word) (s : State) : Except Halt (Byte × State) :=
  if s.cfg.memBytes ≤ a.toNat then .error (.fault (.absentMemory a))
  else .ok (s.mem.read a.toNat, s.edacReport a)

/-- `MemRead(addr, 2)` (R73): an odd address is refused (R77, entry 10). -/
def memRead16 (a : Word) (s : State) : Except Halt (Word × State) :=
  if isOdd a then .error (.refused (.oddWordAccess a))
  else if s.cfg.memBytes ≤ a.toNat + 1 then .error (.fault (.absentMemory a))
  else .ok (s.mem.readWord a.toNat, s.edacReport a)

/-- `MemWrite(addr, 1, v)` (R74). -/
def memWrite8 (a : Word) (v : Byte) (s : State) : Except Halt State :=
  if s.cfg.memBytes ≤ a.toNat then .error (.fault (.absentMemory a))
  else .ok { s with mem := s.mem.write a.toNat v }

/-- `MemWrite(addr, 2, v)` (R75): an odd address is refused (R77, entry 10). -/
def memWrite16 (a v : Word) (s : State) : Except Halt State :=
  if isOdd a then .error (.refused (.oddWordAccess a))
  else if s.cfg.memBytes ≤ a.toNat + 1 then .error (.fault (.absentMemory a))
  else .ok { s with mem := s.mem.writeWord a.toNat v }

/-! ## The two stacks -/

/-- The registers after a push of `v`: each shifts one down, register 15 is lost (R23, R25). -/
def StackRegs.shiftIn (g : StackRegs) (v : Word) : StackRegs :=
  { e0 := v, e1 := g.e0, e2 := g.e1, e3 := g.e2, e4 := g.e3, e5 := g.e4, e6 := g.e5, e7 := g.e6
    e8 := g.e7, e9 := g.e8, e10 := g.e9, e11 := g.e10, e12 := g.e11, e13 := g.e12, e14 := g.e13, e15 := g.e14 }

/-- The registers after a pop: each shifts one up, `last` comes into register 15 (R24, R26). -/
def StackRegs.shiftOut (g : StackRegs) (last : Word) : StackRegs :=
  { e0 := g.e1, e1 := g.e2, e2 := g.e3, e3 := g.e4, e4 := g.e5, e5 := g.e6, e6 := g.e7, e7 := g.e8
    e8 := g.e9, e9 := g.e10, e10 := g.e11, e11 := g.e12, e12 := g.e13, e13 := g.e14, e14 := g.e15, e15 := last }

/-- The underflow trap of a stack (R341, R342). -/
def StackId.underflow : StackId → Trap
  | .param => .paramUnderflow
  | .ret => .returnUnderflow

/-- `PushP(v)` and `PushR(v)` (R23, R25): a push made with a counter of 16 or more first spills register 15 to
the overflow area and lowers the pointer by 2 (D1). -/
def push (k : StackId) (v : Word) (s : State) : Except Halt State := do
  let st := s.stack k
  if 16 ≤ st.ctr.toNat then
    let s1 ← memWrite16 st.ptr st.regs.e15 s
    .ok (s1.setStack k { regs := st.regs.shiftIn v, ptr := st.ptr - 2#16, ctr := st.ctr + 1#16 })
  else .ok (s.setStack k { st with regs := st.regs.shiftIn v, ctr := st.ctr + 1#16 })

/-- `PopP()` and `PopR()` (R24, R26): the old top and the state after the pop. With a counter of 0 the underflow
trap is raised; with a counter above 16 the pointer rises by 2 and register 15 is refilled from there; else
register 15 takes a free value (D2, entry 8). -/
def pop (k : StackId) (s : State) : Run (Word × State) := do
  let st := s.stack k
  if st.ctr = 0#16 then .error (.trap k.underflow)
  else if 16 < st.ctr.toNat then
    let (w, s1) ← orHalt (memRead16 (st.ptr + 2#16) s)
    .ok (st.regs.e0, s1.setStack k { regs := st.regs.shiftOut w, ptr := st.ptr + 2#16, ctr := st.ctr - 1#16 })
  else
    .ok (st.regs.e0, { s.setStack k { st with regs := st.regs.shiftOut (Config.unspec16 s.free), ctr := st.ctr - 1#16 }
      with free := s.free + 1 })

/-- The underflow test of a path that lowers a stack's counter by `n`, made before anything changes (R333, R334,
R345, D4). -/
def needEntries (k : StackId) (n : Nat) (s : State) : Run Unit :=
  if (s.stack k).ctr.toNat < n then .error (.trap k.underflow) else .ok ()

/-! ## The program counter -/

/-- The test of R29 on a computed target: an odd one raises PcOdd. Where the target is known before the effects of
the instruction, the test comes before them, after the underflow test (R345, R347). -/
def needEven (t : Word) : Run Unit :=
  if isOdd t then .error (.trap .pcOdd) else .ok ()

/-- `PC <- t` (R29). -/
def setPc (t : Word) (s : State) : Run State := do
  needEven t
  .ok (s.goto t)

/-- A call: the return address is pushed on the return stack, PC is loaded (R262); a call to an odd target pushes
nothing (R261). -/
def callPc (back target : Word) (s : State) : Run State := do
  needEven target
  let s1 ← orHalt (push .ret back s)
  .ok (s1.goto target)

/-- The return of a subroutine or handler: R0 popped into PC. There is no other return from a trap or interrupt,
and nothing else is restored (R262, R273, R352). A return to an odd address pops nothing (R261, R343). -/
def returnPc (s : State) : Run State := do
  needEntries .ret 1 s
  needEven s.r0
  let (a, s1) ← pop .ret s
  .ok (s1.goto a)

/-! ## Taking traps, the interrupt and reset -/

/-- The vector addresses of the three traps (R85, R330). -/
def Trap.vector : Trap → Word
  | .returnUnderflow => 0x0004#16
  | .paramUnderflow => 0x0008#16
  | .pcOdd => 0x000C#16

/-- `TrapEntry(saved, vector)` (R340): the saved PC is pushed on the return stack, PC is loaded with the vector;
nothing else is saved or changed. The push may spill (R351). -/
def trapEntry (saved vector : Word) (s : State) : Except Halt State := do
  let s1 ← push .ret saved s
  .ok (s1.goto vector)

/-- A synchronous trap taken in the state before the aborted instruction (R346): the underflow traps push `pc0`
(R341, R342), PcOdd saves nothing (R343). -/
def enterTrap (t : Trap) (s : State) : Except Halt State :=
  match t with
  | .pcOdd => .ok (s.goto t.vector)
  | .returnUnderflow => trapEntry s.pc t.vector s
  | .paramUnderflow => trapEntry s.pc t.vector s

/-- The whole instruction from its effect: a trap discards every effect and is entered from the state `s` before
the instruction (R341 to R346). -/
def complete (s : State) : Run State → Host.Outcome State Fault Refusal
  | .ok t => .next t
  | .error (.trap t) => settle (enterTrap t s)
  | .error (.halt h) => h.outcome

/-- A request INT at a boundary (R344): taken when IE is 1, which clears IE, sets I and pushes the address of the
next instruction; when IE is 0 it leaves no trace, or sets I where the parameter says so (R337). -/
def interrupt (s : State) : Except Halt State :=
  if s.flags.ie then trapEntry s.pc 0x0010#16 (s.setFlags { s.flags with ie := false, i := true })
  else if s.cfg.intSetsIWhenMasked then .ok (s.setFlags { s.flags with i := true })
  else .ok s

/-- RST at a boundary (R339): RR, PSC, RSC and PC become #0000, everything else stays. -/
def resetEntry (s : State) : State :=
  { s with rr := 0#16, ps := { s.ps with ctr := 0#16 }, rs := { s.rs with ctr := 0#16 }, pc := 0x0000#16 }

/-! ## Registers by name -/

/-- A register as PUSHPS and PUSHRS read it (R203, R53). "Before the instruction" is after its fetch: where the EDAC
corrects the fetch itself, FLAGS and EA are read with that report (DESIGN CHOICE, entry 15). -/
def State.readReg (s : State) : Reg → Word
  | .pc => s.pc
  | .ppc => s.ppc
  | .hp => s.hp
  | .flags => s.flags.toWord s.cfg.xBits
  | .psp => s.ps.ptr
  | .psc => s.ps.ctr
  | .rsp => s.rs.ptr
  | .rsc => s.rs.ctr
  | .ea => s.ea
  | .rr => s.rr

/-- The end of POPPS and POPRS, after the whole pop (R54, R204): a write of PC is a jump; after a write of any other
register the next instruction follows. FLAGS is written whole (R53). -/
def State.writeReg (s : State) (r : Reg) (v : Word) : State :=
  match r with
  | .pc => s.goto v
  | .ppc => { s with ppc := v }.next2
  | .hp => { s with hp := v }.next2
  | .flags => { s with flags := Flags.ofWord v }.next2
  | .psp => { s with ps := { s.ps with ptr := v } }.next2
  | .psc => { s with ps := { s.ps with ctr := v } }.next2
  | .rsp => { s with rs := { s.rs with ptr := v } }.next2
  | .rsc => { s with rs := { s.rs with ctr := v } }.next2
  | .ea => { s with ea := v }.next2
  | .rr => { s with rr := v }.next2

/-- POPPS and POPRS (R204, R206): the underflow test, the test of a popped PC, the whole pop, then the write. -/
def popInto (k : StackId) (r : Reg) (s : State) : Run State := do
  needEntries k 1 s
  if r = .pc then needEven (s.stack k).regs.e0
  let (v, s1) ← pop k s
  .ok (s1.writeReg r v)

/-! ## Ports -/

/-- The host's next answer to a port read: the head of its script, or a free value (R82, entry 7). -/
def State.portAnswer (s : State) : Word × State :=
  match s.env.portIn with
  | v :: rest => (v, { s with env := { s.env with portIn := rest } })
  | [] => (Config.portAnswer s.free, { s with free := s.free + 1 })

/-- A host call put on record (R82). -/
def State.logPort (s : State) (call : PortCall) : State :=
  { s with env := { s.env with portLog := call :: s.env.portLog } }

/-- `PortRead8(p)`, any port (R83): the low byte of the host's answer. -/
def portRead8 (p : Word) (s : State) : Byte × State :=
  let (v, s1) := s.portAnswer
  (lowByte v, s1.logPort (.read8 p (lowByte v)))

/-- `PortRead16(p)`: an odd port is refused (R84, entry 11). -/
def portRead16 (p : Word) (s : State) : Except Halt (Word × State) :=
  if isOdd p then .error (.refused (.oddPortAccess p))
  else
    let (v, s1) := s.portAnswer
    .ok (v, s1.logPort (.read16 p v))

/-- `PortWrite8(p, v)`, any port (R83). -/
def portWrite8 (p : Word) (v : Byte) (s : State) : State := s.logPort (.write8 p v)

/-- `PortWrite16(p, v)`: an odd port is refused (R84, entry 11). -/
def portWrite16 (p v : Word) (s : State) : Except Halt State :=
  if isOdd p then .error (.refused (.oddPortAccess p)) else .ok (s.logPort (.write16 p v))

/-! ## The shapes of the stack-operand instructions -/

/-- A result replaces P0 in place (uN and sN forms, shifts, NEG, CPL, MASK: R144, R155). -/
def replaceP0 (r : AluResult) (s : State) : Run State := .ok ((s.withResult r).setP0 r.value).next2

/-- A result sets the flags only (CMP, RCMP, TST: R150, R159, R166). -/
def flagsOnly (r : AluResult) (s : State) : Run State := .ok (s.withResult r).next2

/-- The stack form (R144): the result, computed from the old registers, replaces the top two entries. -/
def popReplace (r : AluResult) (s : State) : Run State := do
  let (_, s1) ← pop .param s
  .ok ((s1.withResult r).setP0 r.value).next2

end Sys2Proof.Machine
end

