-- ==== Sys2Proof/Machine/Alu.lean ====
section
/-! DEFINITION. The meanings of the arithmetic, logical, shift and byte instructions (`40_alu.md`, R140 to R167).
Every one is 2 bytes long; none can raise PcOdd. Only the popping stack forms can underflow (R144, R333). -/

namespace Sys2Proof.Machine

/-! ## uN and sN forms: the operand s is the immediate (R144, R145) -/

/-- uN ADD (R147). -/
def execAddU (n : Byte) (s : State) : Host.Outcome State Fault Refusal :=
  complete s (replaceP0 (add s.p0 (operandU n) false) s)

/-- uN ADC (R146). -/
def execAdcU (n : Byte) (s : State) : Host.Outcome State Fault Refusal :=
  complete s (replaceP0 (add s.p0 (operandU n) s.flags.c) s)

/-- uN SUB: P0 - s (R165). -/
def execSubU (n : Byte) (s : State) : Host.Outcome State Fault Refusal :=
  complete s (replaceP0 (sub s.p0 (operandU n) false) s)

/-- uN SBC: P0 - s - C (R164). -/
def execSbcU (n : Byte) (s : State) : Host.Outcome State Fault Refusal :=
  complete s (replaceP0 (sub s.p0 (operandU n) s.flags.c) s)

/-- uN RSUB: s - P0 (R163). -/
def execRsubU (n : Byte) (s : State) : Host.Outcome State Fault Refusal :=
  complete s (replaceP0 (sub (operandU n) s.p0 false) s)

/-- uN RSBC: s - P0 - C (R162). -/
def execRsbcU (n : Byte) (s : State) : Host.Outcome State Fault Refusal :=
  complete s (replaceP0 (sub (operandU n) s.p0 s.flags.c) s)

/-- uN AND (R148). -/
def execAndU (n : Byte) (s : State) : Host.Outcome State Fault Refusal :=
  complete s (replaceP0 (logic (s.p0 &&& (operandU n))) s)

/-- uN OR (R158). -/
def execOrU (n : Byte) (s : State) : Host.Outcome State Fault Refusal :=
  complete s (replaceP0 (logic (s.p0 ||| (operandU n))) s)

/-- uN EOR (R152). -/
def execEorU (n : Byte) (s : State) : Host.Outcome State Fault Refusal :=
  complete s (replaceP0 (logic (s.p0 ^^^ (operandU n))) s)

/-- uN RCMP: flags of s - P0 (R159). -/
def execRcmpU (n : Byte) (s : State) : Host.Outcome State Fault Refusal :=
  complete s (flagsOnly (sub (operandU n) s.p0 false) s)

/-- uN CMP: flags of P0 - s (R150). -/
def execCmpU (n : Byte) (s : State) : Host.Outcome State Fault Refusal :=
  complete s (flagsOnly (sub s.p0 (operandU n) false) s)

/-- uN TST (R166). -/
def execTstU (n : Byte) (s : State) : Host.Outcome State Fault Refusal :=
  complete s (flagsOnly (logic (s.p0 &&& (operandU n))) s)

/-- uN MASK: the low nibble selects the bit (R155). -/
def execMaskU (n : Byte) (s : State) : Host.Outcome State Fault Refusal :=
  complete s (replaceP0 (maskOf (operandMask n)) s)

/-- sN ADD (R147). -/
def execAddS (n : Byte) (s : State) : Host.Outcome State Fault Refusal :=
  complete s (replaceP0 (add s.p0 (operandS n) false) s)

/-- sN ADC (R146). -/
def execAdcS (n : Byte) (s : State) : Host.Outcome State Fault Refusal :=
  complete s (replaceP0 (add s.p0 (operandS n) s.flags.c) s)

/-- sN SUB: P0 - s (R165). -/
def execSubS (n : Byte) (s : State) : Host.Outcome State Fault Refusal :=
  complete s (replaceP0 (sub s.p0 (operandS n) false) s)

/-- sN SBC: P0 - s - C (R164). -/
def execSbcS (n : Byte) (s : State) : Host.Outcome State Fault Refusal :=
  complete s (replaceP0 (sub s.p0 (operandS n) s.flags.c) s)

/-- sN RSUB: s - P0 (R163). -/
def execRsubS (n : Byte) (s : State) : Host.Outcome State Fault Refusal :=
  complete s (replaceP0 (sub (operandS n) s.p0 false) s)

/-- sN RSBC: s - P0 - C (R162). -/
def execRsbcS (n : Byte) (s : State) : Host.Outcome State Fault Refusal :=
  complete s (replaceP0 (sub (operandS n) s.p0 s.flags.c) s)

/-- sN AND (R148). -/
def execAndS (n : Byte) (s : State) : Host.Outcome State Fault Refusal :=
  complete s (replaceP0 (logic (s.p0 &&& (operandS n))) s)

/-- sN OR (R158). -/
def execOrS (n : Byte) (s : State) : Host.Outcome State Fault Refusal :=
  complete s (replaceP0 (logic (s.p0 ||| (operandS n))) s)

/-- sN EOR (R152). -/
def execEorS (n : Byte) (s : State) : Host.Outcome State Fault Refusal :=
  complete s (replaceP0 (logic (s.p0 ^^^ (operandS n))) s)

/-- sN RCMP: flags of s - P0 (R159). -/
def execRcmpS (n : Byte) (s : State) : Host.Outcome State Fault Refusal :=
  complete s (flagsOnly (sub (operandS n) s.p0 false) s)

/-- sN CMP: flags of P0 - s (R150). -/
def execCmpS (n : Byte) (s : State) : Host.Outcome State Fault Refusal :=
  complete s (flagsOnly (sub s.p0 (operandS n) false) s)

/-- sN TST (R166). -/
def execTstS (n : Byte) (s : State) : Host.Outcome State Fault Refusal :=
  complete s (flagsOnly (logic (s.p0 &&& (operandS n))) s)

/-! ## Stack forms: both operands from P0 and P1; CMP, RCMP and TST do not pop (R144, R145) -/

/-- P1 ADD (R147). -/
def execAddP (s : State) : Host.Outcome State Fault Refusal :=
  complete s (popReplace (add s.p0 s.p1 false) s)

/-- P1 ADC (R146). -/
def execAdcP (s : State) : Host.Outcome State Fault Refusal :=
  complete s (popReplace (add s.p0 s.p1 s.flags.c) s)

/-- P1 RSUB: P0 - P1 (R163). -/
def execRsubP (s : State) : Host.Outcome State Fault Refusal :=
  complete s (popReplace (sub s.p0 s.p1 false) s)

/-- P1 RSBC: P0 - P1 - C (R162). -/
def execRsbcP (s : State) : Host.Outcome State Fault Refusal :=
  complete s (popReplace (sub s.p0 s.p1 s.flags.c) s)

/-- P0 SUB: P1 - P0 (R165). -/
def execSubP (s : State) : Host.Outcome State Fault Refusal :=
  complete s (popReplace (sub s.p1 s.p0 false) s)

/-- P0 SBC: P1 - P0 - C (R164). -/
def execSbcP (s : State) : Host.Outcome State Fault Refusal :=
  complete s (popReplace (sub s.p1 s.p0 s.flags.c) s)

/-- P1 AND (R148). -/
def execAndP (s : State) : Host.Outcome State Fault Refusal :=
  complete s (popReplace (logic (s.p0 &&& s.p1)) s)

/-- P1 OR (R158). -/
def execOrP (s : State) : Host.Outcome State Fault Refusal :=
  complete s (popReplace (logic (s.p0 ||| s.p1)) s)

/-- P1 EOR (R152). -/
def execEorP (s : State) : Host.Outcome State Fault Refusal :=
  complete s (popReplace (logic (s.p0 ^^^ s.p1)) s)

/-- P0 CMP: flags of P1 - P0 (R150). -/
def execCmpP (s : State) : Host.Outcome State Fault Refusal :=
  complete s (flagsOnly (sub s.p1 s.p0 false) s)

/-- P1 RCMP: flags of P0 - P1 (R159). -/
def execRcmpP (s : State) : Host.Outcome State Fault Refusal :=
  complete s (flagsOnly (sub s.p0 s.p1 false) s)

/-- P1 TST: no pop, against the printed PSC line (R166, C8). -/
def execTstP (s : State) : Host.Outcome State Fault Refusal :=
  complete s (flagsOnly (logic (s.p0 &&& s.p1)) s)

/-- P0 MASK: P0[3:0] selects the bit; P0 is replaced in place (R155, D37). -/
def execMaskP (s : State) : Host.Outcome State Fault Refusal :=
  complete s (replaceP0 (maskOf (s.p0.extractLsb' 0 4)) s)

/-! ## Instructions without operand -/

/-- CPL, one's complement (R151, C11). -/
def execCpl (s : State) : Host.Outcome State Fault Refusal :=
  complete s (replaceP0 (complement s.p0) s)

/-- NEG, two's complement (R156). -/
def execNeg (s : State) : Host.Outcome State Fault Refusal :=
  complete s (replaceP0 (negate s.p0) s)

/-- LSL (R153). -/
def execLsl (s : State) : Host.Outcome State Fault Refusal :=
  complete s (replaceP0 (shiftLeft s.p0) s)

/-- LSR (R154). -/
def execLsr (s : State) : Host.Outcome State Fault Refusal :=
  complete s (replaceP0 (shiftRight s.p0) s)

/-- ASR (R149). -/
def execAsr (s : State) : Host.Outcome State Fault Refusal :=
  complete s (replaceP0 (shiftRightArith s.p0) s)

/-- ROL through C (R160). -/
def execRol (s : State) : Host.Outcome State Fault Refusal :=
  complete s (replaceP0 (rotateLeft s.p0 s.flags.c) s)

/-- ROR through C (R161). -/
def execRor (s : State) : Host.Outcome State Fault Refusal :=
  complete s (replaceP0 (rotateRight s.p0 s.flags.c) s)

/-- NOP (R157). -/
def execNop (s : State) : Host.Outcome State Fault Refusal :=
  complete s (.ok s.next2)

/-- XB: the bytes of P0 exchanged, no flag (R167). -/
def execXb (s : State) : Host.Outcome State Fault Refusal :=
  complete s (.ok (s.setP0 (exchangeBytes s.p0)).next2)

end Sys2Proof.Machine
end

