-- ==== Sys2Proof/Machine/Control.lean ====
section
/-! DEFINITION. The meanings of the control transfer instructions (`43_control_transfer.md`, R260 to R274). A taken
transfer to an odd address raises PcOdd and leaves nothing behind (R261); none writes a flag. -/

namespace Sys2Proof.Machine

/-- cBR: relative, from `pc0 + 2` (R263). -/
def execCBr (ee : Byte) (k : Cond) (s : State) : Host.Outcome State Fault Refusal :=
  complete s do
    if s.cond k then setPc (branchTarget s.pc ee) s
    else .ok s.next2

/-- sBR: relative, 12-bit displacement (R264). -/
def execSBr (efg : BitVec 12) (s : State) : Host.Outcome State Fault Refusal :=
  complete s do
    setPc (shortTarget s.pc efg) s

/-- cpBSR: call to `pc0 + 4 + P0`; P0 is popped on both paths (R265, D29, C7). -/
def execCpBsr (k : Cond) (s : State) : Host.Outcome State Fault Refusal :=
  complete s do
    needEntries .param 1 s
    if s.cond k then
      needEven (stackTarget s.pc s.p0)
      let (d, s1) ← pop .param s
      callPc (after2 s.pc) (stackTarget s.pc d) s1
    else
      let (_, s1) ← pop .param s
      .ok s1.next2

/-- sBSR: relative call (R266). -/
def execSBsr (efg : BitVec 12) (s : State) : Host.Outcome State Fault Refusal :=
  complete s do
    callPc (after2 s.pc) (shortTarget s.pc efg) s

/-- cJMP: jump to nnnn (R267). -/
def execCJmp (n : Word) (k : Cond) (s : State) : Host.Outcome State Fault Refusal :=
  complete s do
    if s.cond k then setPc n s
    else .ok s.next4

/-- cpJMP: jump to P0, popped on both paths (R268). -/
def execCpJmp (k : Cond) (s : State) : Host.Outcome State Fault Refusal :=
  complete s do
    needEntries .param 1 s
    if s.cond k then
      needEven s.p0
      let (a, s1) ← pop .param s
      .ok (s1.goto a)
    else
      let (_, s1) ← pop .param s
      .ok s1.next2

/-- sJMP: jump to the short address (R269). -/
def execSJmp (abc : BitVec 12) (s : State) : Host.Outcome State Fault Refusal :=
  complete s do
    setPc (shortAddr abc) s

/-- cJSR: call to nnnn, return address `pc0 + 4` (R270). -/
def execCJsr (n : Word) (k : Cond) (s : State) : Host.Outcome State Fault Refusal :=
  complete s do
    if s.cond k then callPc (after4 s.pc) n s
    else .ok s.next4

/-- cpJSR: call to P0, popped on both paths (R271). -/
def execCpJsr (k : Cond) (s : State) : Host.Outcome State Fault Refusal :=
  complete s do
    needEntries .param 1 s
    if s.cond k then
      needEven s.p0
      let (a, s1) ← pop .param s
      callPc (after2 s.pc) a s1
    else
      let (_, s1) ← pop .param s
      .ok s1.next2

/-- sJSR: call to the short address (R272). -/
def execSJsr (abc : BitVec 12) (s : State) : Host.Outcome State Fault Refusal :=
  complete s do
    callPc (after2 s.pc) (shortAddr abc) s

/-- cRTS: the return, if the condition is met (R273); also the return from a trap or interrupt handler (R352). -/
def execCRts (k : Cond) (s : State) : Host.Outcome State Fault Refusal :=
  complete s do
    if s.cond k then returnPc s
    else .ok s.next2

end Sys2Proof.Machine
end

