-- ==== Sys2Proof/Machine/Io.lean ====
section
/-! DEFINITION. The meanings of the input and output instructions (`44_io.md`, R290 to R300): exactly one host call
when the condition is met, none otherwise (R291). cpOUT and cpOUTB write no flag (C18). -/

namespace Sys2Proof.Machine

/-! ## Inputs -/

/-- cIN: the word of port nnnn is pushed (R292). -/
def execCIn (n : Word) (k : Cond) (s : State) : Host.Outcome State Fault Refusal :=
  complete s do
    if s.cond k then
      let (v, s1) ← orHalt (portRead16 n s)
      let s2 ← orHalt (push .param v s1)
      .ok (s2.setZ true).next4
    else .ok (s.setZ false).next4

/-- cINB: the byte of port nnnn, zero-extended (R293). -/
def execCInB (n : Word) (k : Cond) (s : State) : Host.Outcome State Fault Refusal :=
  complete s do
    if s.cond k then
      let (v, s1) := portRead8 n s
      let s2 ← orHalt (push .param (operandU v) s1)
      .ok (s2.setZ true).next4
    else .ok (s.setZ false).next4

/-- cpIN: met, the word of port P0 replaces P0; not met, P0 is popped (R294). -/
def execCpIn (k : Cond) (s : State) : Host.Outcome State Fault Refusal :=
  complete s do
    if s.cond k then
      let (v, s1) ← orHalt (portRead16 s.p0 s)
      .ok ((s1.setP0 v).setZ true).next2
    else
      let (_, s1) ← pop .param s
      .ok (s1.setZ false).next2

/-- cpINB: as cpIN with the byte of port P0, zero-extended (R295). -/
def execCpInB (k : Cond) (s : State) : Host.Outcome State Fault Refusal :=
  complete s do
    if s.cond k then
      let (v, s1) := portRead8 s.p0 s
      .ok ((s1.setP0 (operandU v)).setZ true).next2
    else
      let (_, s1) ← pop .param s
      .ok (s1.setZ false).next2

/-! ## Outputs -/

/-- cOUT: met, P0 is written to port nnnn, then popped (R296). -/
def execCOut (n : Word) (k : Cond) (s : State) : Host.Outcome State Fault Refusal :=
  complete s do
    if s.cond k then
      needEntries .param 1 s
      let s1 ← orHalt (portWrite16 n s.p0 s)
      let (_, s2) ← pop .param s1
      .ok (s2.setZ true).next4
    else .ok (s.setZ false).next4

/-- cOUTB: as cOUT with the low byte of P0 (R297). -/
def execCOutB (n : Word) (k : Cond) (s : State) : Host.Outcome State Fault Refusal :=
  complete s do
    if s.cond k then
      needEntries .param 1 s
      let (_, s1) ← pop .param (portWrite8 n (lowByte s.p0) s)
      .ok (s1.setZ true).next4
    else .ok (s.setZ false).next4

/-- cpOUT: met, P1 is written to port P0; on both paths two entries are popped; no flag (R298, R345). -/
def execCpOut (k : Cond) (s : State) : Host.Outcome State Fault Refusal :=
  complete s do
    needEntries .param 2 s
    let s1 ← if s.cond k then orHalt (portWrite16 s.p0 s.p1 s) else .ok s
    let (_, s2) ← pop .param s1
    let (_, s3) ← pop .param s2
    .ok s3.next2

/-- cpOUTB: as cpOUT with the low byte of P1 (R299, R345). -/
def execCpOutB (k : Cond) (s : State) : Host.Outcome State Fault Refusal :=
  complete s do
    needEntries .param 2 s
    let s1 := if s.cond k then portWrite8 s.p0 (lowByte s.p1) s else s
    let (_, s2) ← pop .param s1
    let (_, s3) ← pop .param s2
    .ok s3.next2

end Sys2Proof.Machine
end

