-- ==== Sys2Proof/Machine/Ips.lean ====
section
/-! DEFINITION. The meanings of the IPS support and system instructions (`45_ips_and_system.md`, R310 to R319). Every
memory access here is a word access and needs an even address (R77). -/

namespace Sys2Proof.Machine

/-- DFX: PPC pushed on the return stack, then loaded from HP (R311). -/
def execDfx (s : State) : Host.Outcome State Fault Refusal :=
  complete s do
    let s1 ← orHalt (push .ret s.ppc s)
    .ok (s1.setPpc s.hp).next2

/-- 2BLIT: the word at PPC is pushed, PPC steps by 2 (R312). -/
def execTwoBlit (s : State) : Host.Outcome State Fault Refusal :=
  complete s do
    let (v, s1) ← orHalt (memRead16 s.ppc s)
    let s2 ← orHalt (push .param v s1)
    .ok (s2.setPpc (s.ppc + 2#16)).next2

/-- EMULATE: one step of the IPS inner interpreter (R313). Refused where the device lacks it (R9, entry 13). -/
def execEmulate (k : Cond) (s : State) : Host.Outcome State Fault Refusal :=
  complete s do
    if !s.cfg.hasEmulate then .error (.halt (.refused .emulateAbsent))
    else if s.cond k then
      let (h, s1) ← orHalt (memRead16 s.ppc s)
      let (t, s2) ← orHalt (memRead16 h s1)
      setPc t ((s2.setPpc (s.ppc + 2#16)).setHp (h + 2#16))
    else .ok s.next2

/-- EXECUTE: PC from the word at HP, HP steps by 2 (R314). -/
def execExecute (k : Cond) (s : State) : Host.Outcome State Fault Refusal :=
  complete s do
    if s.cond k then
      let (t, s1) ← orHalt (memRead16 s.hp s)
      setPc t (s1.setHp (s.hp + 2#16))
    else .ok s.next2

/-- JPPC: PPC from the word at PPC (R315). -/
def execJppc (s : State) : Host.Outcome State Fault Refusal :=
  complete s do
    let (v, s1) ← orHalt (memRead16 s.ppc s)
    .ok (s1.setPpc v).next2

/-- PREPARE: HP from the word at PPC, PPC steps by 2; Z takes the condition (R316). -/
def execPrepare (k : Cond) (s : State) : Host.Outcome State Fault Refusal :=
  complete s do
    if s.cond k then
      let (h, s1) ← orHalt (memRead16 s.ppc s)
      .ok (((s1.setHp h).setPpc (s.ppc + 2#16)).setZ true).next2
    else .ok (s.setZ false).next2

/-- REFRESH: the word at RR is read and written back, RR steps by 2 (R317, D36). -/
def execRefresh (k : Cond) (s : State) : Host.Outcome State Fault Refusal :=
  complete s do
    if s.cond k then
      let (v, s1) ← orHalt (memRead16 s.rr s)
      let s2 ← orHalt (memWrite16 s.rr v s1)
      .ok (s2.setRr (s.rr + 2#16)).next2
    else .ok s.next2

end Sys2Proof.Machine
end

