-- ==== Sys2Proof/Machine/LoadStore.lean ====
section
/-! DEFINITION. The meanings of the load and store instructions (`42_load_store.md`, R230 to R247). The condition
is evaluated first, Z takes its result last (R232); the underflow test comes before any effect (R233). -/

namespace Sys2Proof.Machine

/-! ## Loads -/

/-- cLOAD: the word at nnnn is pushed if the condition is met (R234). -/
def execCLoad (n : Word) (k : Cond) (s : State) : Host.Outcome State Fault Refusal :=
  complete s do
    if s.cond k then
      let (v, s1) ← orHalt (memRead16 n s)
      let s2 ← orHalt (push .param v s1)
      .ok (s2.setZ true).next4
    else .ok (s.setZ false).next4

/-- cLOADB: the byte at nnnn, zero-extended (R235). -/
def execCLoadB (n : Word) (k : Cond) (s : State) : Host.Outcome State Fault Refusal :=
  complete s do
    if s.cond k then
      let (v, s1) ← orHalt (memRead8 n s)
      let s2 ← orHalt (push .param (operandU v) s1)
      .ok (s2.setZ true).next4
    else .ok (s.setZ false).next4

/-- cNLOAD: the operand word itself is pushed if the condition is met (R236). -/
def execCNLoad (n : Word) (k : Cond) (s : State) : Host.Outcome State Fault Refusal :=
  complete s do
    if s.cond k then
      let s1 ← orHalt (push .param n s)
      .ok (s1.setZ true).next4
    else .ok (s.setZ false).next4

/-- cpLOAD: met, the word at P0 replaces P0 and no counter is looked at; not met, P0 is popped (R237). -/
def execCpLoad (k : Cond) (s : State) : Host.Outcome State Fault Refusal :=
  complete s do
    if s.cond k then
      let (v, s1) ← orHalt (memRead16 s.p0 s)
      .ok ((s1.setP0 v).setZ true).next2
    else
      let (_, s1) ← pop .param s
      .ok (s1.setZ false).next2

/-- cpLOADB: as cpLOAD with the byte at P0, zero-extended (R238). -/
def execCpLoadB (k : Cond) (s : State) : Host.Outcome State Fault Refusal :=
  complete s do
    if s.cond k then
      let (v, s1) ← orHalt (memRead8 s.p0 s)
      .ok ((s1.setP0 (operandU v)).setZ true).next2
    else
      let (_, s1) ← pop .param s
      .ok (s1.setZ false).next2

/-- sLOAD: the word at the short address replaces P0 (R239, D24). -/
def execSLoad (abc : BitVec 12) (s : State) : Host.Outcome State Fault Refusal :=
  complete s do
    let (v, s1) ← orHalt (memRead16 (shortAddr abc) s)
    .ok (s1.setP0 v).next2

/-- sNLOAD: the sign-extended immediate is pushed (R240). -/
def execSNLoad (n : Byte) (s : State) : Host.Outcome State Fault Refusal :=
  complete s do
    let s1 ← orHalt (push .param (operandS n) s)
    .ok s1.next2

/-- uNLOAD: the zero-extended immediate is pushed (R241). -/
def execUNLoad (n : Byte) (s : State) : Host.Outcome State Fault Refusal :=
  complete s do
    let s1 ← orHalt (push .param (operandU n) s)
    .ok s1.next2

/-! ## Stores -/

/-- cSTORE: met, P0 is stored at nnnn, then popped (R242). -/
def execCStore (n : Word) (k : Cond) (s : State) : Host.Outcome State Fault Refusal :=
  complete s do
    if s.cond k then
      needEntries .param 1 s
      let s1 ← orHalt (memWrite16 n s.p0 s)
      let (_, s2) ← pop .param s1
      .ok (s2.setZ true).next4
    else .ok (s.setZ false).next4

/-- cSTOREB: as cSTORE with the low byte of P0 (R243). -/
def execCStoreB (n : Word) (k : Cond) (s : State) : Host.Outcome State Fault Refusal :=
  complete s do
    if s.cond k then
      needEntries .param 1 s
      let s1 ← orHalt (memWrite8 n (lowByte s.p0) s)
      let (_, s2) ← pop .param s1
      .ok (s2.setZ true).next4
    else .ok (s.setZ false).next4

/-- cpSTORE: met, P1 is stored at P0; on both paths two entries are popped (R244, R345). -/
def execCpStore (k : Cond) (s : State) : Host.Outcome State Fault Refusal :=
  complete s do
    needEntries .param 2 s
    let s1 ← if s.cond k then orHalt (memWrite16 s.p0 s.p1 s) else .ok s
    let (_, s2) ← pop .param s1
    let (_, s3) ← pop .param s2
    .ok (s3.setZ (s.cond k)).next2

/-- cpSTOREB: as cpSTORE with the low byte of P1 (R245, R345). -/
def execCpStoreB (k : Cond) (s : State) : Host.Outcome State Fault Refusal :=
  complete s do
    needEntries .param 2 s
    let s1 ← if s.cond k then orHalt (memWrite8 s.p0 (lowByte s.p1) s) else .ok s
    let (_, s2) ← pop .param s1
    let (_, s3) ← pop .param s2
    .ok (s3.setZ (s.cond k)).next2

/-- sSTORE: P0 is stored at the short address and kept (R246). -/
def execSStore (abc : BitVec 12) (s : State) : Host.Outcome State Fault Refusal :=
  complete s do
    let s1 ← orHalt (memWrite16 (shortAddr abc) s.p0 s)
    .ok s1.next2

end Sys2Proof.Machine
end

