-- ==== Sys2Proof/Machine/StackOps.lean ====
section
/-! DEFINITION. The meanings of the stack, register-transfer and flag instructions (`41_stack_and_registers.md`,
R190 to R209). Every one is 2 bytes long. -/

namespace Sys2Proof.Machine

/-! ## Parameter stack shuffles -/

/-- DEL: P0 popped and discarded (R192). -/
def execDel (s : State) : Host.Outcome State Fault Refusal :=
  complete s do
    let (_, s1) ← pop .param s
    .ok s1.next2

/-- DUPL: P0 pushed again (R193). -/
def execDupl (s : State) : Host.Outcome State Fault Refusal :=
  complete s do
    let s1 ← orHalt (push .param s.p0 s)
    .ok s1.next2

/-- SOT: P1, read before the shift, is pushed (R194). -/
def execSot (s : State) : Host.Outcome State Fault Refusal :=
  complete s do
    let s1 ← orHalt (push .param s.p1 s)
    .ok s1.next2

/-- SWAP: P0 and P1 exchanged; no counter is looked at (R195, R27). -/
def execSwap (s : State) : Host.Outcome State Fault Refusal :=
  complete s (.ok (s.setP01 s.p1 s.p0).next2)

/-- RTU: new P2 = old P0, new P1 = old P2, new P0 = old P1 (R196). -/
def execRtu (s : State) : Host.Outcome State Fault Refusal :=
  complete s (.ok (s.setP012 s.p1 s.p2 s.p0).next2)

/-- RTD: new P0 = old P2, new P1 = old P0, new P2 = old P1 (R197). -/
def execRtd (s : State) : Host.Outcome State Fault Refusal :=
  complete s (.ok (s.setP012 s.p2 s.p0 s.p1).next2)

/-! ## Between the stacks -/

/-- PTOR: the pop is complete before the push (R191, R198). -/
def execPtor (s : State) : Host.Outcome State Fault Refusal :=
  complete s do
    let (v, s1) ← pop .param s
    let s2 ← orHalt (push .ret v s1)
    .ok s2.next2

/-- RTOP: the pop is complete before the push (R191, R199). -/
def execRtop (s : State) : Host.Outcome State Fault Refusal :=
  complete s do
    let (v, s1) ← pop .ret s
    let s2 ← orHalt (push .param v s1)
    .ok s2.next2

/-- IDX: R0 pushed on the parameter stack (R200). -/
def execIdx (s : State) : Host.Outcome State Fault Refusal :=
  complete s do
    let s1 ← orHalt (push .param s.r0 s)
    .ok s1.next2

/-- XRP: P0 and R0 exchanged (R201). -/
def execXrp (s : State) : Host.Outcome State Fault Refusal :=
  complete s (.ok ((s.setP0 s.r0).setR0 s.p0).next2)

/-! ## Condition to value -/

/-- FLAG: P0 replaced by #0001 or #0000; Z is not written (R202, C6). -/
def execFlag (k : Cond) (s : State) : Host.Outcome State Fault Refusal :=
  complete s (.ok (s.setP0 (if s.cond k then 0x0001#16 else 0x0000#16)).next2)

/-! ## Register transfers -/

/-- PUSHPS: the register as it was before the instruction, after its fetch, is pushed (R54, R203, entry 15). -/
def execPushPs (r : Reg) (s : State) : Host.Outcome State Fault Refusal :=
  complete s do
    let s1 ← orHalt (push .param (s.readReg r) s)
    .ok s1.next2

/-- POPPS: the whole pop, then the register is written (R54, R204). -/
def execPopPs (r : Reg) (s : State) : Host.Outcome State Fault Refusal :=
  complete s (popInto .param r s)

/-- PUSHRS: as PUSHPS, on the return stack (R54, R205, C10). -/
def execPushRs (r : Reg) (s : State) : Host.Outcome State Fault Refusal :=
  complete s do
    let s1 ← orHalt (push .ret (s.readReg r) s)
    .ok s1.next2

/-- POPRS: as POPPS, from the return stack; `PC POPRS` is a return (R54, R206). -/
def execPopRs (r : Reg) (s : State) : Host.Outcome State Fault Refusal :=
  complete s (popInto .ret r s)

/-! ## Single flags -/

/-- SET: I and EE are refused, "unpredictable results" (R207, D30, entry 13). -/
def execSet (m : FlagSel) (s : State) : Host.Outcome State Fault Refusal :=
  if m = .i ∨ m = .ee then .refused (.unpredictableSet m)
  else complete s (.ok (s.setFlags (s.flags.put m true)).next2)

/-- CLEAR: any of the eight flags (R208). -/
def execClear (m : FlagSel) (s : State) : Host.Outcome State Fault Refusal :=
  complete s (.ok (s.setFlags (s.flags.put m false)).next2)

end Sys2Proof.Machine
end

