-- ==== Sys2Proof/Machine/Dispatch.lean ====
section
/-! DEFINITION. Each instruction to its meaning: one arm per constructor of `Instr`. -/

namespace Sys2Proof.Machine

-- The instruction at `pc0`, its bytes already fetched (R28, R78).
def exec (i : Instr) (s : State) : Host.Outcome State Fault Refusal :=
  match i with
  | .sJmp abc => Sys2Proof.Machine.execSJmp abc s
  | .sJsr abc => Sys2Proof.Machine.execSJsr abc s
  | .sLoad abc => Sys2Proof.Machine.execSLoad abc s
  | .sStore abc => Sys2Proof.Machine.execSStore abc s
  | .sBr efg => Sys2Proof.Machine.execSBr efg s
  | .sBsr efg => Sys2Proof.Machine.execSBsr efg s
  | .cNLoad n k => Sys2Proof.Machine.execCNLoad n k s
  | .uNLoad n => Sys2Proof.Machine.execUNLoad n s
  | .sNLoad n => Sys2Proof.Machine.execSNLoad n s
  | .cJsr n k => Sys2Proof.Machine.execCJsr n k s
  | .cJmp n k => Sys2Proof.Machine.execCJmp n k s
  | .cLoad n k => Sys2Proof.Machine.execCLoad n k s
  | .cStore n k => Sys2Proof.Machine.execCStore n k s
  | .cLoadB n k => Sys2Proof.Machine.execCLoadB n k s
  | .cStoreB n k => Sys2Proof.Machine.execCStoreB n k s
  | .cpJsr k => Sys2Proof.Machine.execCpJsr k s
  | .cpJmp k => Sys2Proof.Machine.execCpJmp k s
  | .cpLoad k => Sys2Proof.Machine.execCpLoad k s
  | .cpStore k => Sys2Proof.Machine.execCpStore k s
  | .cpLoadB k => Sys2Proof.Machine.execCpLoadB k s
  | .cpStoreB k => Sys2Proof.Machine.execCpStoreB k s
  | .cRts k => Sys2Proof.Machine.execCRts k s
  | .cpBsr k => Sys2Proof.Machine.execCpBsr k s
  | .cBr ee k => Sys2Proof.Machine.execCBr ee k s
  | .addU n => Sys2Proof.Machine.execAddU n s
  | .adcU n => Sys2Proof.Machine.execAdcU n s
  | .subU n => Sys2Proof.Machine.execSubU n s
  | .sbcU n => Sys2Proof.Machine.execSbcU n s
  | .rsubU n => Sys2Proof.Machine.execRsubU n s
  | .rsbcU n => Sys2Proof.Machine.execRsbcU n s
  | .andU n => Sys2Proof.Machine.execAndU n s
  | .orU n => Sys2Proof.Machine.execOrU n s
  | .eorU n => Sys2Proof.Machine.execEorU n s
  | .rcmpU n => Sys2Proof.Machine.execRcmpU n s
  | .cmpU n => Sys2Proof.Machine.execCmpU n s
  | .maskU n => Sys2Proof.Machine.execMaskU n s
  | .tstU n => Sys2Proof.Machine.execTstU n s
  | .addS n => Sys2Proof.Machine.execAddS n s
  | .adcS n => Sys2Proof.Machine.execAdcS n s
  | .subS n => Sys2Proof.Machine.execSubS n s
  | .sbcS n => Sys2Proof.Machine.execSbcS n s
  | .rsubS n => Sys2Proof.Machine.execRsubS n s
  | .rsbcS n => Sys2Proof.Machine.execRsbcS n s
  | .andS n => Sys2Proof.Machine.execAndS n s
  | .orS n => Sys2Proof.Machine.execOrS n s
  | .eorS n => Sys2Proof.Machine.execEorS n s
  | .rcmpS n => Sys2Proof.Machine.execRcmpS n s
  | .cmpS n => Sys2Proof.Machine.execCmpS n s
  | .tstS n => Sys2Proof.Machine.execTstS n s
  | .addP => Sys2Proof.Machine.execAddP s
  | .adcP => Sys2Proof.Machine.execAdcP s
  | .rsubP => Sys2Proof.Machine.execRsubP s
  | .rsbcP => Sys2Proof.Machine.execRsbcP s
  | .subP => Sys2Proof.Machine.execSubP s
  | .sbcP => Sys2Proof.Machine.execSbcP s
  | .andP => Sys2Proof.Machine.execAndP s
  | .orP => Sys2Proof.Machine.execOrP s
  | .eorP => Sys2Proof.Machine.execEorP s
  | .nop => Sys2Proof.Machine.execNop s
  | .cmpP => Sys2Proof.Machine.execCmpP s
  | .rcmpP => Sys2Proof.Machine.execRcmpP s
  | .maskP => Sys2Proof.Machine.execMaskP s
  | .cpl => Sys2Proof.Machine.execCpl s
  | .tstP => Sys2Proof.Machine.execTstP s
  | .neg => Sys2Proof.Machine.execNeg s
  | .dupl => Sys2Proof.Machine.execDupl s
  | .del => Sys2Proof.Machine.execDel s
  | .swap => Sys2Proof.Machine.execSwap s
  | .sot => Sys2Proof.Machine.execSot s
  | .rtu => Sys2Proof.Machine.execRtu s
  | .rtd => Sys2Proof.Machine.execRtd s
  | .ptor => Sys2Proof.Machine.execPtor s
  | .rtop => Sys2Proof.Machine.execRtop s
  | .idx => Sys2Proof.Machine.execIdx s
  | .xrp => Sys2Proof.Machine.execXrp s
  | .lsl => Sys2Proof.Machine.execLsl s
  | .lsr => Sys2Proof.Machine.execLsr s
  | .rol => Sys2Proof.Machine.execRol s
  | .ror => Sys2Proof.Machine.execRor s
  | .asr => Sys2Proof.Machine.execAsr s
  | .pushPs r => Sys2Proof.Machine.execPushPs r s
  | .popPs r => Sys2Proof.Machine.execPopPs r s
  | .pushRs r => Sys2Proof.Machine.execPushRs r s
  | .popRs r => Sys2Proof.Machine.execPopRs r s
  | .set m => Sys2Proof.Machine.execSet m s
  | .clear m => Sys2Proof.Machine.execClear m s
  | .cIn n k => Sys2Proof.Machine.execCIn n k s
  | .cOut n k => Sys2Proof.Machine.execCOut n k s
  | .cInB n k => Sys2Proof.Machine.execCInB n k s
  | .cOutB n k => Sys2Proof.Machine.execCOutB n k s
  | .cpIn k => Sys2Proof.Machine.execCpIn k s
  | .cpOut k => Sys2Proof.Machine.execCpOut k s
  | .cpInB k => Sys2Proof.Machine.execCpInB k s
  | .cpOutB k => Sys2Proof.Machine.execCpOutB k s
  | .emulate k => Sys2Proof.Machine.execEmulate k s
  | .execute k => Sys2Proof.Machine.execExecute k s
  | .prepare k => Sys2Proof.Machine.execPrepare k s
  | .refresh k => Sys2Proof.Machine.execRefresh k s
  | .dfx => Sys2Proof.Machine.execDfx s
  | .twoBlit => Sys2Proof.Machine.execTwoBlit s
  | .jppc => Sys2Proof.Machine.execJppc s
  | .xb => Sys2Proof.Machine.execXb s
  | .flag k => Sys2Proof.Machine.execFlag k s

end Sys2Proof.Machine
end

