-- ==== Sys2Proof/Machine/Fetch.lean ====
section
/-! DEFINITION. What happens around an instruction: the events of an instruction boundary in the order of R347, and
the fetch of the instruction's bytes (R78). -/

namespace Sys2Proof.Machine

/-! ## The boundary -/

/-- What a boundary leads to: a reset entry, after which the next boundary comes before any fetch, or the fetch
of the instruction at PC (R347). -/
inductive AtBoundary where
  | resetTaken (s : State)
  | proceed (s : State)
  deriving DecidableEq, Repr

/-- The state with another script of coming boundaries. -/
def State.setBoundary (s : State) (l : List Boundary) : State :=
  { s with env := { s.env with boundary := l } }

/-- The boundaries after a reset entry: an EXT or INT presented together with RST is handled at the boundary that
follows the entry (R347). That boundary is put in front of the script, so what the host presents next, even another
RST, comes one instruction later and is not handled together with it (DESIGN CHOICE, entry 4). -/
def leftover (b : Boundary) (rest : List Boundary) : List Boundary :=
  if b.ext || b.int then { b with rst := false } :: rest else rest

/-- EXT at a boundary: sets E, nothing else (R338). -/
def externalEvent (s : State) : State := s.setFlags { s.flags with e := true }

/-- One instruction boundary (R347): RST first and alone; else EXT, then INT, then the fetch. Past the end of the
script nothing is presented (entry 4). -/
def boundary (s : State) : Except Halt AtBoundary :=
  match s.env.boundary with
  | [] => .ok (.proceed s)
  | b :: rest =>
    if b.rst then .ok (.resetTaken (resetEntry (s.setBoundary (leftover b rest))))
    else
      let s1 := s.setBoundary rest
      let s2 := if b.ext then externalEvent s1 else s1
      if b.int then (interrupt s2).map .proceed else .ok (.proceed s2)

/-! ## The fetch -/

/-- The bytes of the instruction at PC and the state after their EDAC reports (R78, R93). An odd PC, which no run
reaches, is refused: the fetch requires an even address (R76). -/
def fetchBytes (s : State) : Except Halt (List Byte × State) := do
  if isOdd s.pc then .error (.refused (.oddWordAccess s.pc))
  else
    let (b0, s1) ← memRead8 s.pc s
    let (b1, s2) ← memRead8 (s.pc + 1#16) s1
    if isLong b0 then
      let (n, s3) ← memRead16 (after2 s.pc) s2
      .ok ([b0, b1, lowByte n, highByte n], s3)
    else .ok ([b0, b1], s2)

/-- The instruction at PC, decoded, and the state it runs in: PC is still `pc0` (R28), the reports of the fetch are
made. An undefined encoding is refused (R113, R114, entry 9). -/
def fetch (s : State) : Except Halt (Instr × State) := do
  let (bytes, s1) ← fetchBytes s
  match decode bytes with
  | .ok (i, _) => .ok (i, s1)
  | .error e => .error (.refused (.undefinedEncoding e))

/-- The bytes of a list stored from an address on, modulo 2^16. -/
def State.storeBytes (s : State) (a : Word) : List Byte → State
  | [] => s
  | b :: rest => { s with mem := s.mem.write a.toNat b }.storeBytes (a + 1#16) rest

end Sys2Proof.Machine
end

