-- ==== Sys2Proof/Machine/Step.lean ====
section
/-! DEFINITION. One step: an instruction boundary, then the fetch and the instruction (R347). -/

namespace Sys2Proof.Machine

/-- Fetch and run the instruction at PC (R28, R78). -/
def runInstr (s : State) : Host.Outcome State Fault Refusal :=
  match fetch s with
  | .ok (i, s1) => exec i s1
  | .error h => h.outcome

/-- One step (R347): the boundary's events, then the instruction at PC. A reset entry is a step of its own (entry 4). -/
def step (s : State) : Host.Outcome State Fault Refusal :=
  match boundary s with
  | .ok (.resetTaken s1) => .next s1
  | .ok (.proceed s1) => runInstr s1
  | .error h => h.outcome

/-- The state with the instruction of an opcode-table word stored at PC and no event at the coming boundary, so that
the next step runs it. It stands for a program loaded from outside (R383, entry 5). -/
def State.withFetchWord (s : State) (nbits w : Nat) : State :=
  (s.storeBytes s.pc (tableBytes nbits w)).setBoundary []

end Sys2Proof.Machine
end

