-- ==== Sys2Proof/Machine/Assembler.lean ====
section
/-! DEFINITION. The assembler of the manual's Chapter 4 as far as it names and builds instructions (R120 to R126, R128):
its constants, its code generators, the bytes and the statement it has for every instruction, the displacements of
its forward references, and NEXT. Comments, numbers and the compiler's own words are no part of it (R6). -/

namespace Sys2Proof

/-! ## Constants (R121 to R124) -/

/-- The constant of a condition code (R122). -/
def Cond.asmConst (k : Cond) : Word := k.code.setWidth 16

/-- The names of a condition code: two for #2 and #3 (R122). -/
def Cond.asmNames : Cond → List String
  | .eq => ["EQ"] | .ne => ["NE"] | .cs => ["CS", "HI"] | .cc => ["CC", "LS"]
  | .mi => ["MI"] | .pl => ["PL"] | .vs => ["VS"] | .vc => ["VC"]
  | .hs => ["HS"] | .lo => ["LO"] | .ge => ["GE"] | .lt => ["LT"]
  | .gt => ["GT"] | .le => ["LE"] | .al => ["AL"] | .nef => ["NEF"]

/-- The first name of a condition code. -/
def Cond.asmName (k : Cond) : String := k.asmNames.headD ""

/-- The constant of a register: the second byte of PUSHPS, POPPS, PUSHRS, POPRS (R123). -/
def Reg.asmConst (r : Reg) : Byte := r.code ++ 0#4

/-- The name of a register (R123). -/
def Reg.asmName : Reg → String
  | .pc => "PC" | .ppc => "PPC" | .hp => "HP" | .flags => "FLAGS" | .psp => "PSP"
  | .psc => "PSC" | .rsp => "RSP" | .rsc => "RSC" | .ea => "EA" | .rr => "RR"

/-- The constant of a flag: the second byte of SET and CLEAR (R124). -/
def FlagSel.asmConst (m : FlagSel) : Byte := m.code ++ 0#4

/-- The name of a flag (R124). -/
def FlagSel.asmName : FlagSel → String
  | .c => "FLGC" | .z => "FLGZ" | .s => "FLGS" | .o => "FLGO"
  | .e => "FLGE" | .i => "FLGI" | .ie => "FLGIE" | .ee => "FLGEE"

/-- The operand-form selectors (R121). -/
inductive OperandForm where
  | uN | sN | p0 | p1
  deriving DecidableEq, Repr

/-- The constant of a selector; P0 and P1 are the same (R121). -/
def OperandForm.asmConst : OperandForm → Byte
  | .uN => 0xA0 | .sN => 0xB0 | .p0 => 0xC0 | .p1 => 0xC0

/-! ## Code generators (R121, R125) -/

/-- `$dep`: a word at the assembly address, low byte first (R120, R125). -/
def dep (w : Word) : List Byte := [lowByte w, highByte w]

/-- `sJCODE`: a 12-bit operand in the instruction; a larger one is truncated (R125). -/
def sjCode (operand : Word) (opcode : Byte) : List Byte := [opcode ||| (highByte operand &&& 0x0F), lowByte operand]

/-- `ccCODE`: opcode and condition code (R125). -/
def ccCode (cc : Word) (opcode : Byte) : List Byte := [opcode, lowByte (cc &&& 0x000F)]

/-- `cBR`: condition code in the first byte, displacement in the second (R125). -/
def cbrCode (ee : Byte) (cc : Word) : List Byte := [0x90 ||| lowByte cc, ee]

/-- `aluCODE`: the stack forms are the group #C0 with the sub-opcode; the immediate forms take the selector with
the sub-opcode divided by 16, and the operand (R121). -/
def aluCode (f : OperandForm) (sub operand : Byte) : List Byte :=
  match f with
  | .p0 | .p1 => [0xC0, sub]
  | .uN | .sN => [f.asmConst ||| (sub >>> 4), operand]

/-- The bytes the assembler deposits for an instruction, built as its source builds them (R125). -/
def assemble : Instr → List Byte
  | .sJmp abc => sjCode (abc.setWidth 16) 0x00
  | .sJsr abc => sjCode (abc.setWidth 16) 0x10
  | .sLoad abc => sjCode (abc.setWidth 16) 0x20
  | .sStore abc => sjCode (abc.setWidth 16) 0x30
  | .sBr efg => sjCode (efg.setWidth 16) 0x40
  | .sBsr efg => sjCode (efg.setWidth 16) 0x50
  | .cNLoad n k => ccCode k.asmConst 0x60 ++ dep n
  | .uNLoad n => [0x70, n]
  | .sNLoad n => [0x71, n]
  | .cJsr n k => ccCode k.asmConst 0x80 ++ dep n
  | .cJmp n k => ccCode k.asmConst 0x81 ++ dep n
  | .cLoad n k => ccCode k.asmConst 0x82 ++ dep n
  | .cStore n k => ccCode k.asmConst 0x83 ++ dep n
  | .cLoadB n k => ccCode k.asmConst 0x84 ++ dep n
  | .cStoreB n k => ccCode k.asmConst 0x85 ++ dep n
  | .cpJsr k => ccCode k.asmConst 0x88
  | .cpJmp k => ccCode k.asmConst 0x89
  | .cpLoad k => ccCode k.asmConst 0x8A
  | .cpStore k => ccCode k.asmConst 0x8B
  | .cpLoadB k => ccCode k.asmConst 0x8C
  | .cpStoreB k => ccCode k.asmConst 0x8D
  | .cRts k => ccCode k.asmConst 0x8E
  | .cpBsr k => ccCode k.asmConst 0x8F
  | .cBr ee k => cbrCode ee k.asmConst
  | .addU n => aluCode .uN 0x00 n
  | .adcU n => aluCode .uN 0x10 n
  | .subU n => aluCode .uN 0x20 n
  | .sbcU n => aluCode .uN 0x30 n
  | .rsubU n => aluCode .uN 0x40 n
  | .rsbcU n => aluCode .uN 0x50 n
  | .andU n => aluCode .uN 0x60 n
  | .orU n => aluCode .uN 0x70 n
  | .eorU n => aluCode .uN 0x80 n
  | .rcmpU n => aluCode .uN 0xA0 n
  | .cmpU n => aluCode .uN 0xB0 n
  | .maskU n => aluCode .uN 0xC0 n
  | .tstU n => aluCode .uN 0xE0 n
  | .addS n => aluCode .sN 0x00 n
  | .adcS n => aluCode .sN 0x10 n
  | .subS n => aluCode .sN 0x20 n
  | .sbcS n => aluCode .sN 0x30 n
  | .rsubS n => aluCode .sN 0x40 n
  | .rsbcS n => aluCode .sN 0x50 n
  | .andS n => aluCode .sN 0x60 n
  | .orS n => aluCode .sN 0x70 n
  | .eorS n => aluCode .sN 0x80 n
  | .rcmpS n => aluCode .sN 0xA0 n
  | .cmpS n => aluCode .sN 0xB0 n
  | .tstS n => aluCode .sN 0xE0 n
  | .addP => aluCode .p1 0x00 0
  | .adcP => aluCode .p1 0x10 0
  | .rsubP => aluCode .p1 0x20 0
  | .rsbcP => aluCode .p1 0x30 0
  | .subP => aluCode .p0 0x40 0
  | .sbcP => aluCode .p0 0x50 0
  | .andP => aluCode .p1 0x60 0
  | .orP => aluCode .p1 0x70 0
  | .eorP => aluCode .p1 0x80 0
  | .nop => dep 0x90C0
  | .cmpP => aluCode .p0 0xA0 0
  | .rcmpP => aluCode .p1 0xB0 0
  | .maskP => aluCode .p0 0xC0 0
  | .cpl => dep 0xD0C0
  | .tstP => aluCode .p1 0xE0 0
  | .neg => dep 0xF0C0
  | .dupl => dep 0x00C1
  | .del => dep 0x10C1
  | .swap => dep 0x20C1
  | .sot => dep 0x30C1
  | .rtu => dep 0x40C1
  | .rtd => dep 0x50C1
  | .ptor => dep 0x60C1
  | .rtop => dep 0x70C1
  | .idx => dep 0x80C1
  | .xrp => dep 0x90C1
  | .lsl => dep 0x00C2
  | .lsr => dep 0x10C2
  | .rol => dep 0x20C2
  | .ror => dep 0x30C2
  | .asr => dep 0x90C2
  | .pushPs qq => [0xD0, qq.asmConst]
  | .popPs qq => [0xD1, qq.asmConst]
  | .pushRs qq => [0xD2, qq.asmConst]
  | .popRs qq => [0xD3, qq.asmConst]
  | .set m => [0xD4, m.asmConst]
  | .clear m => [0xD5, m.asmConst]
  | .cIn n k => ccCode k.asmConst 0xE2 ++ dep n
  | .cOut n k => ccCode k.asmConst 0xE3 ++ dep n
  | .cInB n k => ccCode k.asmConst 0xE4 ++ dep n
  | .cOutB n k => ccCode k.asmConst 0xE5 ++ dep n
  | .cpIn k => ccCode k.asmConst 0xEA
  | .cpOut k => ccCode k.asmConst 0xEB
  | .cpInB k => ccCode k.asmConst 0xEC
  | .cpOutB k => ccCode k.asmConst 0xED
  | .emulate k => ccCode k.asmConst 0xF0
  | .execute k => ccCode k.asmConst 0xF1
  | .prepare k => ccCode k.asmConst 0xF2
  | .refresh k => ccCode k.asmConst 0xF6
  | .dfx => dep 0x00F8
  | .twoBlit => dep 0x00FB
  | .jppc => dep 0x00FC
  | .xb => dep 0x00FD
  | .flag k => ccCode k.asmConst 0xFF

/-! ## Statements (R120) -/

/-- A hexadecimal digit. -/
def hexDigit (d : BitVec 4) : String :=
  ["0", "1", "2", "3", "4", "5", "6", "7", "8", "9", "A", "B", "C", "D", "E", "F"].getD d.toNat ""

/-- `#` and two digits. -/
def hex2 (b : Byte) : String := "#" ++ hexDigit (hiNibble b) ++ hexDigit (loNibble b)

/-- `#` and three digits. -/
def hex3 (x : BitVec 12) : String :=
  "#" ++ hexDigit (x.extractLsb' 8 4) ++ hexDigit (x.extractLsb' 4 4) ++ hexDigit (x.extractLsb' 0 4)

/-- `#` and four digits. -/
def hex4 (w : Word) : String :=
  "#" ++ hexDigit (w.extractLsb' 12 4) ++ hexDigit (w.extractLsb' 8 4) ++ hexDigit (w.extractLsb' 4 4)
    ++ hexDigit (w.extractLsb' 0 4)

/-- The statement of an instruction: operands first, in the order of its Format line, then the mnemonic (R120). -/
def statement : Instr → String
  | .sJmp abc => hex3 abc ++ " sJMP"
  | .sJsr abc => hex3 abc ++ " sJSR"
  | .sLoad abc => hex3 abc ++ " sLOAD"
  | .sStore abc => hex3 abc ++ " sSTORE"
  | .sBr efg => hex3 efg ++ " sBR"
  | .sBsr efg => hex3 efg ++ " sBSR"
  | .cNLoad n k => hex4 n ++ " " ++ k.asmName ++ " cNLOAD"
  | .uNLoad n => hex2 n ++ " uNLOAD"
  | .sNLoad n => hex2 n ++ " sNLOAD"
  | .cJsr n k => hex4 n ++ " " ++ k.asmName ++ " cJSR"
  | .cJmp n k => hex4 n ++ " " ++ k.asmName ++ " cJMP"
  | .cLoad n k => hex4 n ++ " " ++ k.asmName ++ " cLOAD"
  | .cStore n k => hex4 n ++ " " ++ k.asmName ++ " cSTORE"
  | .cLoadB n k => hex4 n ++ " " ++ k.asmName ++ " cLOADB"
  | .cStoreB n k => hex4 n ++ " " ++ k.asmName ++ " cSTOREB"
  | .cpJsr k => k.asmName ++ " cpJSR"
  | .cpJmp k => k.asmName ++ " cpJMP"
  | .cpLoad k => k.asmName ++ " cpLOAD"
  | .cpStore k => k.asmName ++ " cpSTORE"
  | .cpLoadB k => k.asmName ++ " cpLOADB"
  | .cpStoreB k => k.asmName ++ " cpSTOREB"
  | .cRts k => k.asmName ++ " cRTS"
  | .cpBsr k => k.asmName ++ " cpBSR"
  | .cBr ee k => hex2 ee ++ " " ++ k.asmName ++ " cBR"
  | .addU n => hex2 n ++ " uN ADD"
  | .adcU n => hex2 n ++ " uN ADC"
  | .subU n => hex2 n ++ " uN SUB"
  | .sbcU n => hex2 n ++ " uN SBC"
  | .rsubU n => hex2 n ++ " uN RSUB"
  | .rsbcU n => hex2 n ++ " uN RSBC"
  | .andU n => hex2 n ++ " uN AND"
  | .orU n => hex2 n ++ " uN OR"
  | .eorU n => hex2 n ++ " uN EOR"
  | .rcmpU n => hex2 n ++ " uN RCMP"
  | .cmpU n => hex2 n ++ " uN CMP"
  | .maskU n => hex2 n ++ " uN MASK"
  | .tstU n => hex2 n ++ " uN TST"
  | .addS n => hex2 n ++ " sN ADD"
  | .adcS n => hex2 n ++ " sN ADC"
  | .subS n => hex2 n ++ " sN SUB"
  | .sbcS n => hex2 n ++ " sN SBC"
  | .rsubS n => hex2 n ++ " sN RSUB"
  | .rsbcS n => hex2 n ++ " sN RSBC"
  | .andS n => hex2 n ++ " sN AND"
  | .orS n => hex2 n ++ " sN OR"
  | .eorS n => hex2 n ++ " sN EOR"
  | .rcmpS n => hex2 n ++ " sN RCMP"
  | .cmpS n => hex2 n ++ " sN CMP"
  | .tstS n => hex2 n ++ " sN TST"
  | .addP => "P1 ADD"
  | .adcP => "P1 ADC"
  | .rsubP => "P1 RSUB"
  | .rsbcP => "P1 RSBC"
  | .subP => "P0 SUB"
  | .sbcP => "P0 SBC"
  | .andP => "P1 AND"
  | .orP => "P1 OR"
  | .eorP => "P1 EOR"
  | .nop => "NOP"
  | .cmpP => "P0 CMP"
  | .rcmpP => "P1 RCMP"
  | .maskP => "P0 MASK"
  | .cpl => "CPL"
  | .tstP => "P1 TST"
  | .neg => "NEG"
  | .dupl => "DUPL"
  | .del => "DEL"
  | .swap => "SWAP"
  | .sot => "SOT"
  | .rtu => "RTU"
  | .rtd => "RTD"
  | .ptor => "PTOR"
  | .rtop => "RTOP"
  | .idx => "IDX"
  | .xrp => "XRP"
  | .lsl => "LSL"
  | .lsr => "LSR"
  | .rol => "ROL"
  | .ror => "ROR"
  | .asr => "ASR"
  | .pushPs qq => qq.asmName ++ " PUSHPS"
  | .popPs qq => qq.asmName ++ " POPPS"
  | .pushRs qq => qq.asmName ++ " PUSHRS"
  | .popRs qq => qq.asmName ++ " POPRS"
  | .set m => m.asmName ++ " SET"
  | .clear m => m.asmName ++ " CLEAR"
  | .cIn n k => hex4 n ++ " " ++ k.asmName ++ " cIN"
  | .cOut n k => hex4 n ++ " " ++ k.asmName ++ " cOUT"
  | .cInB n k => hex4 n ++ " " ++ k.asmName ++ " cINB"
  | .cOutB n k => hex4 n ++ " " ++ k.asmName ++ " cOUTB"
  | .cpIn k => k.asmName ++ " cpIN"
  | .cpOut k => k.asmName ++ " cpOUT"
  | .cpInB k => k.asmName ++ " cpINB"
  | .cpOutB k => k.asmName ++ " cpOUTB"
  | .emulate k => k.asmName ++ " EMULATE"
  | .execute k => k.asmName ++ " EXECUTE"
  | .prepare k => k.asmName ++ " PREPARE"
  | .refresh k => k.asmName ++ " REFRESH"
  | .dfx => "DFX"
  | .twoBlit => "2BLIT"
  | .jppc => "JPPC"
  | .xb => "XB"
  | .flag k => k.asmName ++ " FLAG"

/-! ## Forward references and NEXT (R126, R128) -/

/-- The displacement that `sBRcomplete` and `sBSRcomplete` patch into the sBR or sBSR at `at0` (R126). -/
def fixShort (at0 here : Word) : BitVec 12 := (here - (at0 + 2#16)).setWidth 12

/-- The displacement that `cBRend` patches into the cBR at `at0` (R126). -/
def fixBranch (at0 here : Word) : Byte := (here - (at0 + 2#16)).setWidth 8

/-- NEXT, the only pseudo-instruction: `NEF EMULATE` and `#650 sJMP` (R128). -/
def nextPseudo : List Instr := [.emulate .nef, .sJmp 0x650]

end Sys2Proof
end

