-- ==== Sys2Proof/Safety.lean ====
section
/-! DEFINITION. The terms the statements use: legal parameters, which accesses the memory can serve, the invariant
of every step, the states that a push, a pop, a result or a trap leads to, and what a safe run is. -/

namespace Sys2Proof

/-- `MEM_BYTES` is 2 to 65536 (R8). -/
abbrev Config.legal (c : Config) : Prop := 2 ≤ c.memBytes ∧ c.memBytes ≤ 65536

namespace Machine

/-! ## What the memory and the stacks can serve -/

/-- A byte access at `a` reaches fitted memory (R70). -/
abbrev State.hasByte (s : State) (a : Word) : Prop := a.toNat < s.cfg.memBytes

/-- A word access at `a` is even and reaches fitted memory (R70, R76). -/
abbrev State.hasWord (s : State) (a : Word) : Prop := isOdd a = false ∧ a.toNat + 1 < s.cfg.memBytes

/-- A push on stack `k` can be made: the word at the pointer can be written if the push spills (R23, R25). -/
abbrev State.pushReady (s : State) (k : StackId) : Prop :=
  16 ≤ (s.stack k).ctr.toNat → s.hasWord (s.stack k).ptr

/-- A pop of stack `k` can be made: an entry is counted, and the word above the pointer can be read if the pop
refills (R24, R26). -/
abbrev State.popReady (s : State) (k : StackId) : Prop :=
  (s.stack k).ctr ≠ 0#16 ∧ (16 < (s.stack k).ctr.toNat → s.hasWord ((s.stack k).ptr + 2#16))

/-- Two pops of stack `k` can be made one after the other (R24, R345). -/
abbrev State.popTwiceReady (s : State) (k : StackId) : Prop :=
  2 ≤ (s.stack k).ctr.toNat ∧ (16 < (s.stack k).ctr.toNat → s.hasWord ((s.stack k).ptr + 2#16))
    ∧ (17 < (s.stack k).ctr.toNat → s.hasWord ((s.stack k).ptr + 4#16))

/-! ## The boundary before an instruction -/

/-- Nothing is presented at the coming boundary: the script is over, or its next entry has neither RST nor EXT nor
INT (R347 step 4; log entry 4 for the script). -/
abbrev State.quiet (s : State) : Prop :=
  s.env.boundary = [] ∨ s.env.boundary.head? = some ⟨false, false, false⟩

/-- The state past the coming boundary: the script has moved on by one entry, nothing else has changed. -/
def State.pastBoundary (s : State) : State := { s with env := { s.env with boundary := s.env.boundary.tail } }

/-! ## The states operations lead to -/

/-- Whether a push on stack `k` stores to the byte at `a`: the two bytes at the pointer when the counter is 16 or
more (R23, R25). -/
abbrev State.spillsTo (s : State) (k : StackId) (a : Nat) : Prop :=
  16 ≤ (s.stack k).ctr.toNat ∧ (a = (s.stack k).ptr.toNat ∨ a = (s.stack k).ptr.toNat + 1)

/-- The state after a push of `v` on stack `k`, as R23 and R25 write it. -/
def State.afterPush (s : State) (k : StackId) (v : Word) : State :=
  let st := s.stack k
  if 16 ≤ st.ctr.toNat then
    { s with mem := s.mem.writeWord st.ptr.toNat st.regs.e15 }.setStack k
      { regs := st.regs.shiftIn v, ptr := st.ptr - 2#16, ctr := st.ctr + 1#16 }
  else s.setStack k { regs := st.regs.shiftIn v, ptr := st.ptr, ctr := st.ctr + 1#16 }

/-- The state after a pop of stack `k`, as R24 and R26 write it. Without a refill register 15 takes a free value. -/
def State.afterPop (s : State) (k : StackId) : State :=
  let st := s.stack k
  if 16 < st.ctr.toNat then
    (s.edacReport (st.ptr + 2#16)).setStack k
      { regs := st.regs.shiftOut (s.mem.readWord (st.ptr + 2#16).toNat), ptr := st.ptr + 2#16, ctr := st.ctr - 1#16 }
  else
    { s.setStack k { regs := st.regs.shiftOut (Config.unspec16 s.free), ptr := st.ptr, ctr := st.ctr - 1#16 } with
      free := s.free + 1 }

/-- The state after a 16-bit result has replaced P0 in place, with C, Z, S and O, and PC moved past a 2-byte
instruction. -/
def State.withP0Result (s : State) (r : AluResult) : State :=
  { s with
    pc := s.pc + 2#16
    ps := { s.ps with regs := { s.ps.regs with e0 := r.value } }
    flags := { s.flags with c := r.c, z := r.z, s := r.s, o := r.o } }

/-- The state after C, Z, S and O were written and nothing else, and PC moved past a 2-byte instruction. -/
def State.withFlagResult (s : State) (r : AluResult) : State :=
  { s with pc := s.pc + 2#16, flags := { s.flags with c := r.c, z := r.z, s := r.s, o := r.o } }

/-- The state after an underflow trap or the interrupt: `saved` pushed on the return stack, PC at the vector, nothing
else changed (R340). -/
def State.afterTrap (s : State) (saved vector : Word) : State :=
  { s.afterPush .ret saved with pc := vector }

/-! ## What arithmetic results are -/

/-- The 16-bit sum `a + b + c` and its flags (R140). -/
def IsSum (a b : Word) (c : Bool) (r : AluResult) : Prop :=
  r.value.toNat = (a.toNat + b.toNat + c.toNat) % 65536
    ∧ (r.c = true ↔ 65536 ≤ a.toNat + b.toNat + c.toNat)
    ∧ (r.z = true ↔ r.value.toNat = 0)
    ∧ (r.s = true ↔ 32768 ≤ r.value.toNat)
    ∧ (r.o = true ↔ a.toInt + b.toInt + c.toNat < -32768 ∨ 32767 < a.toInt + b.toInt + c.toNat)

/-- The 16-bit difference `a - b - c` and its flags: C is a true borrow (R141), O is told from the sign bits (R142). -/
def IsDifference (a b : Word) (c : Bool) (r : AluResult) : Prop :=
  r.value.toNat = (a.toNat + 131072 - b.toNat - c.toNat) % 65536
    ∧ (r.c = true ↔ a.toNat < b.toNat + c.toNat)
    ∧ (r.z = true ↔ r.value.toNat = 0)
    ∧ (r.s = true ↔ 32768 ≤ r.value.toNat)
    ∧ (r.o = true ↔ a.msb ≠ b.msb ∧ r.value.msb ≠ a.msb)

/-- A logical result with its flags: C and O are reset (R143). -/
def IsLogical (v : Word) (r : AluResult) : Prop :=
  r.value = v ∧ r.c = false ∧ r.o = false ∧ (r.z = true ↔ v.toNat = 0) ∧ (r.s = true ↔ 32768 ≤ v.toNat)

/-! ## Claims about one instruction -/

/-- No address; for an instruction that stores nothing. -/
abbrev nowhere : Nat → Prop := fun _ => False

/-- The bytes of a word at `a`. -/
abbrev wordAt (a : Word) : Nat → Prop := fun b => b = a.toNat ∨ b = a.toNat + 1

/-- The byte at `a`. -/
abbrev byteAt (a : Word) : Nat → Prop := fun b => b = a.toNat

/-- The instruction completes at `s` with the next state `t`, and every byte outside `stored` reads as before. -/
def Completes (i : Instr) (s t : State) (stored : Nat → Prop) : Prop :=
  exec i s = .next t ∧ ∀ a : Nat, ¬ stored a → t.mem.read a = s.mem.read a

/-- Instruction `i` raises ParamStackUnderflow at `s`: the table of R333. -/
def paramUnderflows (i : Instr) (s : State) : Prop :=
  match i with
  | .adcP | .addP | .andP | .eorP | .orP | .rsbcP | .rsubP | .sbcP | .subP => s.ps.ctr.toNat = 0
  | .del | .ptor | .popPs _ => s.ps.ctr.toNat = 0
  | .cStore _ k | .cStoreB _ k | .cOut _ k | .cOutB _ k => s.cond k = true ∧ s.ps.ctr.toNat = 0
  | .cpLoad k | .cpLoadB k | .cpIn k | .cpInB k => s.cond k = false ∧ s.ps.ctr.toNat = 0
  | .cpStore _ | .cpStoreB _ | .cpOut _ | .cpOutB _ => s.ps.ctr.toNat < 2
  | .cpJmp _ | .cpJsr _ | .cpBsr _ => s.ps.ctr.toNat = 0
  | _ => False

/-- Instruction `i` raises ReturnStackUnderflow at `s`: the table of R334. -/
def returnUnderflows (i : Instr) (s : State) : Prop :=
  match i with
  | .rtop | .popRs _ => s.rs.ctr.toNat = 0
  | .cRts k => s.cond k = true ∧ s.rs.ctr.toNat = 0
  | _ => False

/-- The value that instruction `i` would load into PC at `s` as a computed target, for the instructions of R335 whose
target is known before any memory access. -/
def computedTarget (i : Instr) (s : State) : Option Word :=
  match i with
  | .cBr ee k => if s.cond k then some (s.pc + 2#16 + ee.signExtend 16) else none
  | .sBr efg | .sBsr efg => some (s.pc + 2#16 + efg.signExtend 16)
  | .cpBsr k => if s.cond k then some (s.pc + 4#16 + s.p0) else none
  | .cJmp n k | .cJsr n k => if s.cond k then some n else none
  | .cpJmp k | .cpJsr k => if s.cond k then some s.p0 else none
  | .sJmp abc | .sJsr abc => some (abc.setWidth 16)
  | .cRts k => if s.cond k then some s.r0 else none
  | .popPs .pc => some s.p0
  | .popRs .pc => some s.r0
  | _ => none

/-- One of the eight instructions that reach the I/O space (R81). -/
def isIo (i : Instr) : Bool :=
  match i with
  | .cIn _ _ | .cOut _ _ | .cInB _ _ | .cOutB _ _ | .cpIn _ | .cpOut _ | .cpInB _ | .cpOutB _ => true
  | _ => false

/-- The instructions that write C, S, Z and O (R43). -/
def writesArithmeticFlags (i : Instr) : Bool :=
  match i with
  | .addU _ | .adcU _ | .subU _ | .sbcU _ | .rsubU _ | .rsbcU _ | .andU _ | .orU _ | .eorU _ => true
  | .rcmpU _ | .cmpU _ | .maskU _ | .tstU _ => true
  | .addS _ | .adcS _ | .subS _ | .sbcS _ | .rsubS _ | .rsbcS _ | .andS _ | .orS _ | .eorS _ => true
  | .rcmpS _ | .cmpS _ | .tstS _ => true
  | .addP | .adcP | .rsubP | .rsbcP | .subP | .sbcP | .andP | .orP | .eorP => true
  | .cmpP | .rcmpP | .maskP | .cpl | .tstP | .neg | .lsl | .lsr | .rol | .ror | .asr => true
  | _ => false

/-- The sixteen instructions that write Z and no other flag (R33, R43). -/
def writesZOnly (i : Instr) : Bool :=
  match i with
  | .cLoad _ _ | .cLoadB _ _ | .cNLoad _ _ | .cpLoad _ | .cpLoadB _ | .cStore _ _ | .cStoreB _ _ => true
  | .cpStore _ | .cpStoreB _ | .cIn _ _ | .cInB _ _ | .cpIn _ | .cpInB _ | .cOut _ _ | .cOutB _ _ | .prepare _ => true
  | _ => false

/-- The instructions whose purpose is to write flags: SET, CLEAR, `FLAGS POPPS`, `FLAGS POPRS` (R43). -/
def writesFlagsByName (i : Instr) : Bool :=
  match i with
  | .set _ | .clear _ | .popPs .flags | .popRs .flags => true
  | _ => false

/-! ## Invariant and safe runs -/

/-- What every step keeps: memory in its canonical form, PC even (R29), legal parameters (R8). -/
abbrev State.Inv (s : State) : Prop := s.mem.wf = true ∧ isOdd s.pc = false ∧ s.cfg.legal

/-- A step that neither faults nor is refused. -/
def SafeStep (s : State) : Prop := ∃ t, step s = .next t

/-- A run of `n` steps that neither faults nor is refused. -/
def SafeRun : Nat → State → Prop
  | 0, _ => True
  | n + 1, s => ∃ t, step s = .next t ∧ SafeRun n t

end Machine
end Sys2Proof
end

