-- ==== Sys2Proof/Certificates/Slice0/Obligations.lean ====
section
/-! DEFINITION. The statements for the provers. `Completes i s t stored`: the instruction completes with the next
state `t`, given in full, and stores to no byte outside `stored`. -/

open Sys2Proof Sys2Proof.Machine

/-! ## Encoding -/

/-- Decoding an encoded instruction gives it back, with the bytes that follow. -/
def Obligations.DecodeOfEncode : Prop :=
  ∀ (i : Instr) (rest : List Byte), decode (encode i ++ rest) = .ok (i, rest)

/-- Every instruction has one encoding: the bytes that decode to it are its encoding. -/
def Obligations.EncodeOfDecode : Prop :=
  ∀ (bytes : List Byte) (i : Instr) (rest : List Byte), decode bytes = .ok (i, rest) → bytes = encode i ++ rest

/-- R106: the length is told by the first byte alone. -/
def Obligations.LengthToldByFirstByte : Prop :=
  ∀ (b0 : Byte) (bytes : List Byte) (i : Instr) (rest : List Byte), decode (b0 :: bytes) = .ok (i, rest) →
    if b0 ∈ [0x60#8, 0x80#8, 0x81#8, 0x82#8, 0x83#8, 0x84#8, 0x85#8, 0xE2#8, 0xE3#8, 0xE4#8, 0xE5#8]
    then (b0 :: bytes).length = rest.length + 4
    else (b0 :: bytes).length = rest.length + 2

/-- R102, R107, R108, R109, R111, R112, R115: the formats with their opcodes, every operand at every value; and, from the
table of R110, the immediate instructions. -/
def Obligations.FormatsDecodeEveryOperand : Prop :=
  ∀ rest : List Byte,
    (∀ (x : BitVec 12), ∀ p ∈ [(0x0#4, Instr.sJmp), (0x1#4, .sJsr), (0x2#4, .sLoad), (0x3#4, .sStore),
        (0x4#4, .sBr), (0x5#4, .sBsr)],
      decode ((p.1 ++ x.extractLsb' 8 4) :: x.extractLsb' 0 8 :: rest) = .ok (p.2 x, rest))
    ∧ (∀ (k : Cond) (ee : Byte), decode ((0x9#4 ++ k.code) :: ee :: rest) = .ok (.cBr ee k, rest))
    ∧ (∀ (k : Cond), ∀ p ∈ [(0x88#8, Instr.cpJsr), (0x89#8, .cpJmp), (0x8A#8, .cpLoad), (0x8B#8, .cpStore),
        (0x8C#8, .cpLoadB), (0x8D#8, .cpStoreB), (0x8E#8, .cRts), (0x8F#8, .cpBsr), (0xEA#8, .cpIn), (0xEB#8, .cpOut),
        (0xEC#8, .cpInB), (0xED#8, .cpOutB), (0xF0#8, .emulate), (0xF1#8, .execute), (0xF2#8, .prepare),
        (0xF6#8, .refresh), (0xFF#8, .flag)],
      decode (p.1 :: (0x0#4 ++ k.code) :: rest) = .ok (p.2 k, rest))
    ∧ (∀ (n : Word) (k : Cond), ∀ p ∈ [(0x60#8, Instr.cNLoad), (0x80#8, .cJsr), (0x81#8, .cJmp), (0x82#8, .cLoad),
        (0x83#8, .cStore), (0x84#8, .cLoadB), (0x85#8, .cStoreB), (0xE2#8, .cIn), (0xE3#8, .cOut), (0xE4#8, .cInB),
        (0xE5#8, .cOutB)],
      decode (p.1 :: (0x0#4 ++ k.code) :: n.extractLsb' 0 8 :: n.extractLsb' 8 8 :: rest) = .ok (p.2 n k, rest))
    ∧ (∀ p ∈ [(0x0#4, Instr.addP), (0x1#4, .adcP), (0x2#4, .rsubP), (0x3#4, .rsbcP), (0x4#4, .subP), (0x5#4, .sbcP),
        (0x6#4, .andP), (0x7#4, .orP), (0x8#4, .eorP), (0x9#4, .nop), (0xA#4, .cmpP), (0xB#4, .rcmpP), (0xC#4, .maskP),
        (0xD#4, .cpl), (0xE#4, .tstP), (0xF#4, .neg)],
      decode (0xC0#8 :: (p.1 ++ 0x0#4) :: rest) = .ok (p.2, rest))
    ∧ (∀ p ∈ [(0x0#4, Instr.dupl), (0x1#4, .del), (0x2#4, .swap), (0x3#4, .sot), (0x4#4, .rtu), (0x5#4, .rtd),
        (0x6#4, .ptor), (0x7#4, .rtop), (0x8#4, .idx), (0x9#4, .xrp)],
      decode (0xC1#8 :: (p.1 ++ 0x0#4) :: rest) = .ok (p.2, rest))
    ∧ (∀ p ∈ [(0x0#4, Instr.lsl), (0x1#4, .lsr), (0x2#4, .rol), (0x3#4, .ror), (0x9#4, .asr)],
      decode (0xC2#8 :: (p.1 ++ 0x0#4) :: rest) = .ok (p.2, rest))
    ∧ (∀ q ∈ [(0x0#4, Reg.pc), (0x1#4, .ppc), (0x2#4, .hp), (0x3#4, .flags), (0x4#4, .psp), (0x5#4, .psc),
        (0x6#4, .rsp), (0x7#4, .rsc), (0x8#4, .ea), (0x9#4, .rr)],
      ∀ p ∈ [(0xD0#8, Instr.pushPs), (0xD1#8, .popPs), (0xD2#8, .pushRs), (0xD3#8, .popRs)],
      decode (p.1 :: (q.1 ++ 0x0#4) :: rest) = .ok (p.2 q.2, rest))
    ∧ (∀ q ∈ [(0x0#4, FlagSel.c), (0x1#4, .z), (0x2#4, .s), (0x3#4, .o), (0x4#4, .e), (0x5#4, .i), (0x6#4, .ie),
        (0x7#4, .ee)],
      ∀ p ∈ [(0xD4#8, Instr.set), (0xD5#8, .clear)],
      decode (p.1 :: (q.1 ++ 0x0#4) :: rest) = .ok (p.2 q.2, rest))
    ∧ (∀ p ∈ [(0xF8#8, Instr.dfx), (0xFB#8, .twoBlit), (0xFC#8, .jppc), (0xFD#8, .xb)],
      decode (p.1 :: 0x00#8 :: rest) = .ok (p.2, rest))
    ∧ (∀ (n : Byte), ∀ p ∈ [(0x70#8, Instr.uNLoad), (0x71#8, .sNLoad),
        (0xA0#8, .addU), (0xA1#8, .adcU), (0xA2#8, .subU), (0xA3#8, .sbcU), (0xA4#8, .rsubU), (0xA5#8, .rsbcU),
        (0xA6#8, .andU), (0xA7#8, .orU), (0xA8#8, .eorU), (0xAA#8, .rcmpU), (0xAB#8, .cmpU), (0xAC#8, .maskU),
        (0xAE#8, .tstU), (0xB0#8, .addS), (0xB1#8, .adcS), (0xB2#8, .subS), (0xB3#8, .sbcS), (0xB4#8, .rsubS),
        (0xB5#8, .rsbcS), (0xB6#8, .andS), (0xB7#8, .orS), (0xB8#8, .eorS), (0xBA#8, .rcmpS), (0xBB#8, .cmpS),
        (0xBE#8, .tstS)],
      decode (p.1 :: n :: rest) = .ok (p.2 n, rest))

/-- R120 to R125, R128: what the assembler's code generators deposit for an instruction is its encoding, and NEXT is the
bytes #F0 #0F #06 #50; R126: a patched displacement leads back to the place it was taken from, for every
displacement. -/
def Obligations.AssemblerBuildsTheEncoding : Prop :=
  (∀ i : Instr, assemble i = encode i)
    ∧ (nextPseudo.map assemble).flatten = [0xF0#8, 0x0F#8, 0x06#8, 0x50#8]
    ∧ ∀ (at0 : Word) (ee : Byte) (efg : BitVec 12),
      fixBranch at0 (at0 + 2#16 + ee.signExtend 16) = ee ∧ fixShort at0 (at0 + 2#16 + efg.signExtend 16) = efg

/-- Written words of the spec's examples decode to the instructions they stand for: W1, W5, W6, W10, the second
instruction of X1 (R269) and the first of X3 (R236) of 95_test_vectors.md. That the operand word of the last is bits
31 to 16 is log entry 14. -/
def Obligations.WrittenWordsDecode : Prop :=
  decodeTableWord 16 0xC010 = some .adcP ∧ decodeTableWord 16 0x9004 = some (.cBr 0x04 .eq)
    ∧ decodeTableWord 16 0x4006 = some (.sBr 0x006) ∧ decodeTableWord 16 0xC0D0 = some .cpl
    ∧ decodeTableWord 16 0x0650 = some (.sJmp 0x650)
    ∧ decodeTableWord 32 0xFFFE600E = some (.cNLoad 0xFFFE .al)

/-- R113, R114 (the spec's decisions D21, D22; log entry 9): the 76 undefined first bytes and the undefined fields are no
instruction; every other first byte begins one; a step that fetches an undefined encoding is refused by name: of two
bytes, and, once its operand word is fetched too, of a first byte of format L with an undefined second byte. Nothing is
presented at the boundary of that step (log entry 4). -/
def Obligations.UndefinedEncodingsAreRefused : Prop :=
  let undefinedFirst : List Nat :=
    [0x61, 0x62, 0x63, 0x64, 0x65, 0x66, 0x67, 0x68, 0x69, 0x6A, 0x6B, 0x6C, 0x6D, 0x6E, 0x6F,
     0x72, 0x73, 0x74, 0x75, 0x76, 0x77, 0x78, 0x79, 0x7A, 0x7B, 0x7C, 0x7D, 0x7E, 0x7F, 0x86, 0x87,
     0xA9, 0xAD, 0xAF, 0xB9, 0xBC, 0xBD, 0xBF,
     0xC3, 0xC4, 0xC5, 0xC6, 0xC7, 0xC8, 0xC9, 0xCA, 0xCB, 0xCC, 0xCD, 0xCE, 0xCF,
     0xD6, 0xD7, 0xD8, 0xD9, 0xDA, 0xDB, 0xDC, 0xDD, 0xDE, 0xDF, 0xE0, 0xE1, 0xE6, 0xE7, 0xE8, 0xE9, 0xEE, 0xEF,
     0xF3, 0xF4, 0xF5, 0xF7, 0xF9, 0xFA, 0xFE]
  undefinedFirst.length = 76
    ∧ (∀ (b0 b1 : Byte) (rest : List Byte), b0.toNat ∈ undefinedFirst →
        decode (b0 :: b1 :: rest) = .error (.undefinedOpcode b0))
    ∧ (∀ b0 : Byte, b0.toNat ∉ undefinedFirst → ∃ bytes i, decode (b0 :: bytes) = .ok (i, []))
    ∧ (∀ (b0 b1 b2 b3 : Byte) (rest : List Byte),
        (b0 ∈ [0x60#8, 0x80#8, 0x81#8, 0x82#8, 0x83#8, 0x84#8, 0x85#8, 0xE2#8, 0xE3#8, 0xE4#8, 0xE5#8,
            0x88#8, 0x89#8, 0x8A#8, 0x8B#8, 0x8C#8, 0x8D#8, 0x8E#8, 0x8F#8, 0xEA#8, 0xEB#8, 0xEC#8, 0xED#8,
            0xF0#8, 0xF1#8, 0xF2#8, 0xF6#8, 0xFF#8] ∧ b1.extractLsb' 4 4 ≠ 0#4)
          ∨ (b0 ∈ [0xC0#8, 0xC1#8, 0xC2#8, 0xD0#8, 0xD1#8, 0xD2#8, 0xD3#8, 0xD4#8, 0xD5#8] ∧ b1.extractLsb' 0 4 ≠ 0#4)
          ∨ (b0 ∈ [0xF8#8, 0xFB#8, 0xFC#8, 0xFD#8] ∧ b1 ≠ 0x00#8)
          ∨ (b0 = 0xC1#8 ∧ 0xA#4 ≤ b1.extractLsb' 4 4)
          ∨ (b0 = 0xC2#8 ∧ b1.extractLsb' 4 4 ∉ [0x0#4, 0x1#4, 0x2#4, 0x3#4, 0x9#4])
          ∨ (b0 ∈ [0xD0#8, 0xD1#8, 0xD2#8, 0xD3#8] ∧ 0xA#4 ≤ b1.extractLsb' 4 4)
          ∨ (b0 ∈ [0xD4#8, 0xD5#8] ∧ 0x8#4 ≤ b1.extractLsb' 4 4) →
        decode (b0 :: b1 :: b2 :: b3 :: rest) = .error (.undefinedField b0 b1))
    ∧ (∀ (s : State) (e : DecodeError), s.quiet → s.hasWord s.pc →
        isLong (s.mem.read s.pc.toNat) = false →
        decode [s.mem.read s.pc.toNat, s.mem.read (s.pc.toNat + 1)] = .error e →
          step s = .refused (.undefinedEncoding e))
    ∧ (∀ s : State, s.quiet → s.hasWord s.pc → isLong (s.mem.read s.pc.toNat) = true →
        s.hasWord (s.pc + 2#16) → (s.mem.read (s.pc.toNat + 1)).extractLsb' 4 4 ≠ 0#4 →
          step s = .refused (.undefinedEncoding
            (.undefinedField (s.mem.read s.pc.toNat) (s.mem.read (s.pc.toNat + 1)))))

/-- R41: what each of the sixteen codes tests. -/
def Obligations.ConditionCodesTestTheFlags : Prop :=
  ∀ f : Flags,
    (f.holds (Cond.ofCode 0x0) = true ↔ f.z = true) ∧ (f.holds (Cond.ofCode 0x1) = true ↔ f.z = false)
    ∧ (f.holds (Cond.ofCode 0x2) = true ↔ f.c = true) ∧ (f.holds (Cond.ofCode 0x3) = true ↔ f.c = false)
    ∧ (f.holds (Cond.ofCode 0x4) = true ↔ f.s = true) ∧ (f.holds (Cond.ofCode 0x5) = true ↔ f.s = false)
    ∧ (f.holds (Cond.ofCode 0x6) = true ↔ f.o = true) ∧ (f.holds (Cond.ofCode 0x7) = true ↔ f.o = false)
    ∧ (f.holds (Cond.ofCode 0x8) = true ↔ f.z = true ∨ f.c = true)
    ∧ (f.holds (Cond.ofCode 0x9) = true ↔ f.z = false ∧ f.c = false)
    ∧ (f.holds (Cond.ofCode 0xA) = true ↔ f.s = f.o) ∧ (f.holds (Cond.ofCode 0xB) = true ↔ f.s ≠ f.o)
    ∧ (f.holds (Cond.ofCode 0xC) = true ↔ f.z = false ∧ f.s = f.o)
    ∧ (f.holds (Cond.ofCode 0xD) = true ↔ f.z = true ∨ f.s ≠ f.o)
    ∧ f.holds (Cond.ofCode 0xE) = true ∧ (f.holds (Cond.ofCode 0xF) = true ↔ f.e = false)

/-! ## The step, the boundary, the events -/

/-- A step runs the decoded instruction (R28, R78, R347): with nothing presented at the boundary, because the script is
over or because its next entry has no event (log entry 4), `step` is `exec` of the instruction whose bytes stand at PC,
in the state past that boundary and after the EDAC reports of the fetch, PC still at its address. -/
def Obligations.StepRunsDecodedInstruction : Prop :=
  ∀ (s : State) (i : Instr), s.hasWord s.pc →
    let u := s.pastBoundary
    (s.env.boundary = [] → u = s)
    ∧ (∀ rest, s.env.boundary = ⟨false, false, false⟩ :: rest → u = { s with env := { s.env with boundary := rest } })
    ∧ (s.quiet → isLong (s.mem.read s.pc.toNat) = false →
      decode [s.mem.read s.pc.toNat, s.mem.read (s.pc.toNat + 1)] = .ok (i, []) →
        step s = exec i ((u.edacReport s.pc).edacReport (s.pc + 1#16))
        ∧ (s.env.edac = [] → step s = exec i u))
    ∧ (s.quiet → isLong (s.mem.read s.pc.toNat) = true → s.hasWord (s.pc + 2#16) →
      decode [s.mem.read s.pc.toNat, s.mem.read (s.pc.toNat + 1), s.mem.read (s.pc + 2#16).toNat,
          s.mem.read ((s.pc + 2#16).toNat + 1)] = .ok (i, []) →
        step s = exec i (((u.edacReport s.pc).edacReport (s.pc + 1#16)).edacReport (s.pc + 2#16))
        ∧ (s.env.edac = [] → step s = exec i u))

/-- R339, R347: RST at a boundary. That the reset entry is a step of its own, in which no instruction is fetched, is log
entry 4, with the script of boundaries. -/
def Obligations.ResetEntersAtZero : Prop :=
  ∀ (s : State) (b : Boundary) (rest : List Boundary), s.env.boundary = b :: rest → b.rst = true →
    ∃ t, step s = .next t ∧ t.rr = 0x0000#16 ∧ t.ps.ctr = 0x0000#16 ∧ t.rs.ctr = 0x0000#16 ∧ t.pc = 0x0000#16
      ∧ t.flags = s.flags ∧ t.ppc = s.ppc ∧ t.hp = s.hp ∧ t.ps.ptr = s.ps.ptr ∧ t.rs.ptr = s.rs.ptr ∧ t.ea = s.ea
      ∧ t.ps.regs = s.ps.regs ∧ t.rs.regs = s.rs.regs ∧ ∀ a : Nat, t.mem.read a = s.mem.read a

/-- R338, R347 (decisions D20, D28; log entry 4): EXT sets E, whatever IE is, and then the instruction at PC runs; EXT and
INT presented together with RST are left for the next boundary, which they have for themselves, before the rest of the
script (log entry 4). -/
def Obligations.ExternalEventAndResetOrder : Prop :=
  ∀ (s : State) (rest : List Boundary),
    (s.env.boundary = ⟨false, true, false⟩ :: rest →
      step s = runInstr { s with flags := { s.flags with e := true }, env := { s.env with boundary := rest } })
    ∧ (∀ ext int : Bool, s.env.boundary = ⟨true, ext, int⟩ :: rest →
      ∃ t, step s = .next t
        ∧ t.env.boundary = if ext = true ∨ int = true then ⟨false, ext, int⟩ :: rest else rest)

/-- R344, R347 (decisions D7, D19, D20; log entry 4 for the script and the step): INT with IE = 1 clears IE, sets I, pushes PC on the return stack and goes to
#0010, where the next instruction is fetched; an EXT at the same boundary has set E first. -/
def Obligations.InterruptTaken : Prop :=
  ∀ (s : State) (ext : Bool) (rest : List Boundary), s.mem.wf = true →
    s.env.boundary = ⟨false, ext, true⟩ :: rest → s.flags.ie = true → s.pushReady .ret →
    ∃ t, step s = runInstr t
      ∧ t = ({ s with
          flags := { s.flags with ie := false, i := true, e := s.flags.e || ext }
          env := { s.env with boundary := rest } } : State).afterTrap s.pc 0x0010#16
      ∧ ∀ a : Nat, ¬ s.spillsTo .ret a → t.mem.read a = s.mem.read a

/-- R337 (decision D19; log entry 4 for the script): INT with IE = 0 leaves no trace, but for I where INT_SETS_I_WHEN_MASKED is true. -/
def Obligations.InterruptMasked : Prop :=
  ∀ (s : State) (ext : Bool) (rest : List Boundary), s.env.boundary = ⟨false, ext, true⟩ :: rest →
    s.flags.ie = false →
    step s = runInstr { s with
      flags := { s.flags with e := s.flags.e || ext, i := s.flags.i || s.cfg.intSetsIWhenMasked }
      env := { s.env with boundary := rest } }

/-! ## Synchronous traps -/

/-- R333, R334, R341, R342, R346 (decisions D4, D5, D6): every instruction of the table of R333, under its condition, takes
the parameter-stack underflow trap with none of its own effects; the same for the return stack and the table of R334. -/
def Obligations.UnderflowTraps : Prop :=
  ∀ (i : Instr) (s : State), s.mem.wf = true → s.pushReady .ret →
    (paramUnderflows i s → Completes i s (s.afterTrap s.pc 0x0008#16) (s.spillsTo .ret))
    ∧ (returnUnderflows i s → Completes i s (s.afterTrap s.pc 0x0004#16) (s.spillsTo .ret))

/-- R335, R343, R346, R347 (decisions D5, D20, D32): an odd computed target, where no underflow comes first, leads to
#000C and changes nothing else; EMULATE and EXECUTE likewise when the word they fetch for PC is odd. R346 discards the
EDAC reports of the aborted data reads; that the script of the oracle is given back its answers to them as well is the
model's choice (log entry 6). -/
def Obligations.PcOddTraps : Prop :=
  (∀ (i : Instr) (s : State) (target : Word), computedTarget i s = some target → isOdd target = true →
    ¬ paramUnderflows i s → ¬ returnUnderflows i s → Completes i s { s with pc := 0x000C#16 } nowhere)
  ∧ (∀ (k : Cond) (s : State), s.cond k = true → s.cfg.hasEmulate = true → s.hasWord s.ppc →
    s.hasWord (s.mem.readWord s.ppc.toNat) →
    isOdd (s.mem.readWord (s.mem.readWord s.ppc.toNat).toNat) = true →
      Completes (.emulate k) s { s with pc := 0x000C#16 } nowhere)
  ∧ (∀ (k : Cond) (s : State), s.cond k = true → s.hasWord s.hp →
    isOdd (s.mem.readWord s.hp.toNat) = true → Completes (.execute k) s { s with pc := 0x000C#16 } nowhere)

/-! ## Rules of the whole machine -/

/-- Every step keeps memory canonical, PC even (R29, R78) and the parameters legal (R8); it changes no parameter (log
entry 3). -/
def Obligations.StepKeepsInvariant : Prop :=
  ∀ s t : State, s.Inv → step s = .next t → t.Inv ∧ t.cfg = s.cfg

/-- The state after reset meets the invariant, and PC, PSC, RSC and RR are #0000 (R57). -/
def Obligations.ResetMeetsInvariant : Prop :=
  State.reset.Inv ∧ State.reset.pc = 0x0000#16 ∧ State.reset.ps.ctr = 0x0000#16 ∧ State.reset.rs.ctr = 0x0000#16
    ∧ State.reset.rr = 0x0000#16

/-- R82, R291: only the eight I/O instructions call the host, each at most once, and the record of calls only
grows. -/
def Obligations.OnlyIoCallsTheHost : Prop :=
  ∀ (i : Instr) (s t : State), exec i s = .next t →
    (isIo i = false → t.env.portLog = s.env.portLog ∧ t.env.portIn = s.env.portIn)
    ∧ (t.env.portLog = s.env.portLog ∨ ∃ call, t.env.portLog = call :: s.env.portLog)

/-- R43: which instructions write which flags; EE and EC change besides only by an EDAC report. -/
def Obligations.FlagsWrittenOnlyAsListed : Prop :=
  ∀ (i : Instr) (s t : State), exec i s = .next t → writesFlagsByName i = false →
    t.flags.e = s.flags.e ∧ t.flags.i = s.flags.i ∧ t.flags.ie = s.flags.ie
    ∧ (writesArithmeticFlags i = false →
        t.flags.c = s.flags.c ∧ t.flags.s = s.flags.s ∧ t.flags.o = s.flags.o)
    ∧ (writesArithmeticFlags i = false → writesZOnly i = false → t.flags.z = s.flags.z)
    ∧ (s.env.edac = [] → t.flags.ee = s.flags.ee ∧ t.flags.ec = s.flags.ec)

/-- R44, R45, R50, R51: which instructions write PPC, HP, RR and EA. -/
def Obligations.SupportRegistersWrittenOnlyAsListed : Prop :=
  ∀ (i : Instr) (s t : State), exec i s = .next t →
    (i ≠ .twoBlit → (∀ k, i ≠ .emulate k) → (∀ k, i ≠ .prepare k) → i ≠ .jppc → i ≠ .dfx → i ≠ .popPs .ppc →
      i ≠ .popRs .ppc → t.ppc = s.ppc)
    ∧ ((∀ k, i ≠ .emulate k) → (∀ k, i ≠ .prepare k) → (∀ k, i ≠ .execute k) → i ≠ .popPs .hp → i ≠ .popRs .hp →
      t.hp = s.hp)
    ∧ ((∀ k, i ≠ .refresh k) → i ≠ .popPs .rr → i ≠ .popRs .rr → t.rr = s.rr)
    ∧ (s.env.edac = [] → i ≠ .popPs .ea → i ≠ .popRs .ea → t.ea = s.ea)

/-! ## Memory -/

/-- R74, R75: a byte write; a word write at an even address, low byte at the lower address. -/
def Obligations.WritesChangeTheirBytes : Prop :=
  ∀ (s : State) (a : Word), s.mem.wf = true →
    (∀ v : Byte, s.hasByte a → ∃ t, memWrite8 a v s = .ok t ∧ t = { s with mem := t.mem } ∧ t.mem.read a.toNat = v
      ∧ ∀ b : Nat, b ≠ a.toNat → t.mem.read b = s.mem.read b)
    ∧ (∀ v : Word, s.hasWord a → ∃ t, memWrite16 a v s = .ok t ∧ t = { s with mem := t.mem }
      ∧ t.mem.read a.toNat = v.extractLsb' 0 8 ∧ t.mem.read (a.toNat + 1) = v.extractLsb' 8 8
      ∧ ∀ b : Nat, b ≠ a.toNat → b ≠ a.toNat + 1 → t.mem.read b = s.mem.read b)

/-- R72, R73: a byte read gives the byte; a word read at an even address gives the byte at the higher address as the
more significant one; neither has an effect but the EDAC report. -/
def Obligations.ReadsGiveTheBytes : Prop :=
  ∀ (s : State) (a : Word),
    (s.hasByte a → memRead8 a s = .ok (s.mem.read a.toNat, s.edacReport a))
    ∧ (s.hasWord a → memRead16 a s = .ok (s.mem.read (a.toNat + 1) ++ s.mem.read a.toNat, s.edacReport a))
    ∧ ∃ ee ec ea edac, s.edacReport a
        = { s with flags := { s.flags with ee := ee, ec := ec }, ea := ea, env := { s.env with edac := edac } }

/-- R93, R40, R39 (decisions D11, D12; log entry 6 for the script of the oracle): a corrected read sets EE, counts EC
up modulo 64 and loads EA with the address; an uncorrected one changes nothing. -/
def Obligations.EdacReportCountsCorrections : Prop :=
  ∀ (s : State) (a : Word) (rest : List Bool),
    (s.env.edac = true :: rest →
      (s.edacReport a).flags.ee = true ∧ (s.edacReport a).flags.ec.toNat = (s.flags.ec.toNat + 1) % 64
      ∧ (s.edacReport a).ea = a ∧ (s.edacReport a).env.edac = rest)
    ∧ (s.env.edac = false :: rest → s.edacReport a = { s with env := { s.env with edac := rest } })
    ∧ (s.env.edac = [] → s.edacReport a = s)

/-! ## Arithmetic, logic, shifts (40_alu.md) -/

/-- R140, R146, R147: the uN and sN forms of ADD and ADC. -/
def Obligations.AddImmediateForms : Prop :=
  ∀ (s : State) (n : Byte),
    (∃ r, IsSum s.p0 (n.setWidth 16) false r ∧ Completes (.addU n) s (s.withP0Result r) nowhere)
    ∧ (∃ r, IsSum s.p0 (n.signExtend 16) false r ∧ Completes (.addS n) s (s.withP0Result r) nowhere)
    ∧ (∃ r, IsSum s.p0 (n.setWidth 16) s.flags.c r ∧ Completes (.adcU n) s (s.withP0Result r) nowhere)
    ∧ (∃ r, IsSum s.p0 (n.signExtend 16) s.flags.c r ∧ Completes (.adcS n) s (s.withP0Result r) nowhere)

/-- R140, R144, R146, R147 (R24 for the pop): the stack forms of ADD and ADC; both operands are read before the pop. -/
def Obligations.AddStackForms : Prop :=
  ∀ s : State, s.popReady .param →
    (∃ r, IsSum s.p0 s.p1 false r ∧ Completes .addP s ((s.afterPop .param).withP0Result r) nowhere)
    ∧ (∃ r, IsSum s.p0 s.p1 s.flags.c r ∧ Completes .adcP s ((s.afterPop .param).withP0Result r) nowhere)

/-- R141, R142, R162 to R165: the uN and sN forms of the four subtracts. -/
def Obligations.SubtractImmediateForms : Prop :=
  ∀ (s : State) (n : Byte),
    (∃ r, IsDifference s.p0 (n.setWidth 16) false r ∧ Completes (.subU n) s (s.withP0Result r) nowhere)
    ∧ (∃ r, IsDifference s.p0 (n.signExtend 16) false r ∧ Completes (.subS n) s (s.withP0Result r) nowhere)
    ∧ (∃ r, IsDifference s.p0 (n.setWidth 16) s.flags.c r ∧ Completes (.sbcU n) s (s.withP0Result r) nowhere)
    ∧ (∃ r, IsDifference s.p0 (n.signExtend 16) s.flags.c r ∧ Completes (.sbcS n) s (s.withP0Result r) nowhere)
    ∧ (∃ r, IsDifference (n.setWidth 16) s.p0 false r ∧ Completes (.rsubU n) s (s.withP0Result r) nowhere)
    ∧ (∃ r, IsDifference (n.signExtend 16) s.p0 false r ∧ Completes (.rsubS n) s (s.withP0Result r) nowhere)
    ∧ (∃ r, IsDifference (n.setWidth 16) s.p0 s.flags.c r ∧ Completes (.rsbcU n) s (s.withP0Result r) nowhere)
    ∧ (∃ r, IsDifference (n.signExtend 16) s.p0 s.flags.c r ∧ Completes (.rsbcS n) s (s.withP0Result r) nowhere)

/-- R141, R142, R144, R162 to R165: the stack forms: SUB and SBC take the top from the second, RSUB and RSBC the
second from the top. -/
def Obligations.SubtractStackForms : Prop :=
  ∀ s : State, s.popReady .param →
    (∃ r, IsDifference s.p1 s.p0 false r ∧ Completes .subP s ((s.afterPop .param).withP0Result r) nowhere)
    ∧ (∃ r, IsDifference s.p1 s.p0 s.flags.c r ∧ Completes .sbcP s ((s.afterPop .param).withP0Result r) nowhere)
    ∧ (∃ r, IsDifference s.p0 s.p1 false r ∧ Completes .rsubP s ((s.afterPop .param).withP0Result r) nowhere)
    ∧ (∃ r, IsDifference s.p0 s.p1 s.flags.c r ∧ Completes .rsbcP s ((s.afterPop .param).withP0Result r) nowhere)

/-- R150, R159 (R141, R142 for the flags): the compares write the flags of a difference and change nothing else, whatever
PSC holds. -/
def Obligations.CompareForms : Prop :=
  ∀ (s : State) (n : Byte),
    (∃ r, IsDifference s.p0 (n.setWidth 16) false r ∧ Completes (.cmpU n) s (s.withFlagResult r) nowhere)
    ∧ (∃ r, IsDifference s.p0 (n.signExtend 16) false r ∧ Completes (.cmpS n) s (s.withFlagResult r) nowhere)
    ∧ (∃ r, IsDifference s.p1 s.p0 false r ∧ Completes .cmpP s (s.withFlagResult r) nowhere)
    ∧ (∃ r, IsDifference (n.setWidth 16) s.p0 false r ∧ Completes (.rcmpU n) s (s.withFlagResult r) nowhere)
    ∧ (∃ r, IsDifference (n.signExtend 16) s.p0 false r ∧ Completes (.rcmpS n) s (s.withFlagResult r) nowhere)
    ∧ (∃ r, IsDifference s.p0 s.p1 false r ∧ Completes .rcmpP s (s.withFlagResult r) nowhere)

/-- R150, R159, R41: what the condition codes say after `P0 CMP`, CS after `P1 RCMP` and after `n uN CMP`. -/
def Obligations.CompareMakesTheConditions : Prop :=
  ∀ (s : State) (n : Byte),
    (∃ t, exec .cmpP s = .next t
      ∧ (t.cond .eq = true ↔ s.p1 = s.p0) ∧ (t.cond .cs = true ↔ s.p1.toNat < s.p0.toNat)
      ∧ (t.cond .lo = true ↔ s.p0.toNat < s.p1.toNat) ∧ (t.cond .hs = true ↔ s.p1.toNat ≤ s.p0.toNat)
      ∧ (t.cond .cc = true ↔ s.p0.toNat ≤ s.p1.toNat) ∧ (t.cond .lt = true ↔ s.p1.toInt < s.p0.toInt)
      ∧ (t.cond .gt = true ↔ s.p0.toInt < s.p1.toInt) ∧ (t.cond .ge = true ↔ s.p0.toInt ≤ s.p1.toInt)
      ∧ (t.cond .le = true ↔ s.p1.toInt ≤ s.p0.toInt))
    ∧ (∃ t, exec .rcmpP s = .next t ∧ (t.cond .cs = true ↔ s.p0.toNat < s.p1.toNat))
    ∧ (∃ t, exec (.cmpU n) s = .next t ∧ (t.cond .cs = true ↔ s.p0.toNat < n.toNat))

/-- R143, R144, R148, R152, R158, R166: the uN and sN forms of AND, OR, EOR, every form of TST, and the stack forms of AND,
OR, EOR (R24 for the pop). -/
def Obligations.LogicAndTestForms : Prop :=
  ∀ (s : State) (n : Byte),
    (∃ r, IsLogical (s.p0 &&& n.setWidth 16) r ∧ Completes (.andU n) s (s.withP0Result r) nowhere)
    ∧ (∃ r, IsLogical (s.p0 &&& n.signExtend 16) r ∧ Completes (.andS n) s (s.withP0Result r) nowhere)
    ∧ (∃ r, IsLogical (s.p0 ||| n.setWidth 16) r ∧ Completes (.orU n) s (s.withP0Result r) nowhere)
    ∧ (∃ r, IsLogical (s.p0 ||| n.signExtend 16) r ∧ Completes (.orS n) s (s.withP0Result r) nowhere)
    ∧ (∃ r, IsLogical (s.p0 ^^^ n.setWidth 16) r ∧ Completes (.eorU n) s (s.withP0Result r) nowhere)
    ∧ (∃ r, IsLogical (s.p0 ^^^ n.signExtend 16) r ∧ Completes (.eorS n) s (s.withP0Result r) nowhere)
    ∧ (∃ r, IsLogical (s.p0 &&& n.setWidth 16) r ∧ Completes (.tstU n) s (s.withFlagResult r) nowhere)
    ∧ (∃ r, IsLogical (s.p0 &&& n.signExtend 16) r ∧ Completes (.tstS n) s (s.withFlagResult r) nowhere)
    ∧ (∃ r, IsLogical (s.p0 &&& s.p1) r ∧ Completes .tstP s (s.withFlagResult r) nowhere)
    ∧ (s.popReady .param →
      (∃ r, IsLogical (s.p0 &&& s.p1) r ∧ Completes .andP s ((s.afterPop .param).withP0Result r) nowhere)
      ∧ (∃ r, IsLogical (s.p0 ||| s.p1) r ∧ Completes .orP s ((s.afterPop .param).withP0Result r) nowhere)
      ∧ (∃ r, IsLogical (s.p0 ^^^ s.p1) r ∧ Completes .eorP s ((s.afterPop .param).withP0Result r) nowhere))

/-- R155 (decision D37): MASK leaves one bit, chosen by the low four bits of the operand, in P0; Z is 0, S is 1 for bit
15 only. R151: CPL inverts every bit; the value of C is left open here, as U30 asks (log entry 40). -/
def Obligations.MaskAndComplement : Prop :=
  ∀ (s : State) (n : Byte),
    (∃ r : AluResult, r.value.toNat = 2 ^ (n.toNat % 16) ∧ r.c = false ∧ r.o = false ∧ r.z = false
      ∧ (r.s = true ↔ n.toNat % 16 = 15) ∧ Completes (.maskU n) s (s.withP0Result r) nowhere)
    ∧ (∃ r : AluResult, r.value.toNat = 2 ^ (s.p0.toNat % 16) ∧ r.c = false ∧ r.o = false ∧ r.z = false
      ∧ (r.s = true ↔ s.p0.toNat % 16 = 15) ∧ Completes .maskP s (s.withP0Result r) nowhere)
    ∧ (let v := 65535 - s.p0.toNat
      ∃ carry : Bool, Completes .cpl s (s.withP0Result
        { value := BitVec.ofNat 16 v, c := carry, z := decide (v = 0), s := decide (32768 ≤ v), o := false }) nowhere)

/-- R149, R153, R154, R160, R161: the five shifts by one, with their encodings. -/
def Obligations.ShiftsByOne : Prop :=
  decodeTableWord 16 0xC290 = some .asr ∧ decodeTableWord 16 0xC200 = some .lsl
  ∧ decodeTableWord 16 0xC210 = some .lsr ∧ decodeTableWord 16 0xC220 = some .rol
  ∧ decodeTableWord 16 0xC230 = some .ror
  ∧ ∀ s : State,
    let x := s.p0.toNat
    let high := decide (32768 ≤ x)
    let low := decide (x % 2 = 1)
    let result (v : Nat) (carry : Bool) : AluResult :=
      { value := BitVec.ofNat 16 v, c := carry, z := decide (v = 0), s := decide (32768 ≤ v), o := false }
    Completes .lsl s (s.withP0Result (result (2 * x % 65536) high)) nowhere
    ∧ Completes .lsr s (s.withP0Result (result (x / 2) low)) nowhere
    ∧ Completes .asr s (s.withP0Result (result (x / 2 + if high then 32768 else 0) low)) nowhere
    ∧ Completes .rol s (s.withP0Result (result (2 * x % 65536 + s.flags.c.toNat) high)) nowhere
    ∧ Completes .ror s (s.withP0Result (result (x / 2 + 32768 * s.flags.c.toNat) low)) nowhere

/-- R156: NEG, with its encoding; #8000 is left unchanged and O is reset even then. -/
def Obligations.NegateTwosComplement : Prop :=
  decodeTableWord 16 0xC0F0 = some .neg
  ∧ ∀ s : State,
    let v := (65536 - s.p0.toNat) % 65536
    Completes .neg s (s.withP0Result
      { value := BitVec.ofNat 16 v, c := decide (s.p0.toNat ≠ 0), z := decide (v = 0), s := decide (32768 ≤ v),
        o := false }) nowhere
    ∧ (s.p0 = 0x8000#16 → v = 32768)

/-- R157, R167: NOP and XB, with their encodings. -/
def Obligations.NopAndExchangeBytes : Prop :=
  decodeTableWord 16 0xC090 = some .nop ∧ decodeTableWord 16 0xFD00 = some .xb
  ∧ ∀ s : State,
    Completes .nop s { s with pc := s.pc + 2#16 } nowhere
    ∧ Completes .xb s { s with
        pc := s.pc + 2#16
        ps := { s.ps with regs := { s.ps.regs with
          e0 := BitVec.ofNat 16 (s.p0.toNat % 256 * 256 + s.p0.toNat / 256) } } } nowhere

/-! ## Stacks, registers, flags (41_stack_and_registers.md) -/

/-- R195, R196, R197, R201: SWAP, RTU, RTD, XRP, with their encodings; they look at no counter. RTD undoes RTU. -/
def Obligations.ShufflesInPlace : Prop :=
  decodeTableWord 16 0xC120 = some .swap ∧ decodeTableWord 16 0xC140 = some .rtu
  ∧ decodeTableWord 16 0xC150 = some .rtd ∧ decodeTableWord 16 0xC190 = some .xrp
  ∧ ∀ s : State,
    Completes .swap s { s with
      pc := s.pc + 2#16
      ps := { s.ps with regs := { s.ps.regs with e0 := s.ps.regs.e1, e1 := s.ps.regs.e0 } } } nowhere
    ∧ Completes .rtu s { s with
      pc := s.pc + 2#16
      ps := { s.ps with regs := { s.ps.regs with
        e0 := s.ps.regs.e1, e1 := s.ps.regs.e2, e2 := s.ps.regs.e0 } } } nowhere
    ∧ Completes .rtd s { s with
      pc := s.pc + 2#16
      ps := { s.ps with regs := { s.ps.regs with
        e0 := s.ps.regs.e2, e1 := s.ps.regs.e0, e2 := s.ps.regs.e1 } } } nowhere
    ∧ Completes .xrp s { s with
      pc := s.pc + 2#16
      ps := { s.ps with regs := { s.ps.regs with e0 := s.rs.regs.e0 } }
      rs := { s.rs with regs := { s.rs.regs with e0 := s.ps.regs.e0 } } } nowhere
    ∧ (∃ t u, exec .rtu s = .next t ∧ exec .rtd t = .next u ∧ u.ps = s.ps)

/-- R193, R194, R200, R240, R241 (R23 for the push, decision D1): DUPL, SOT, IDX, sNLOAD, uNLOAD push one word. -/
def Obligations.PushingInstructions : Prop :=
  ∀ (s : State) (n : Byte), s.mem.wf = true → s.pushReady .param →
    Completes .dupl s { s.afterPush .param s.p0 with pc := s.pc + 2#16 } (s.spillsTo .param)
    ∧ Completes .sot s { s.afterPush .param s.p1 with pc := s.pc + 2#16 } (s.spillsTo .param)
    ∧ Completes .idx s { s.afterPush .param s.r0 with pc := s.pc + 2#16 } (s.spillsTo .param)
    ∧ Completes (.uNLoad n) s { s.afterPush .param (BitVec.ofNat 16 n.toNat) with pc := s.pc + 2#16 }
        (s.spillsTo .param)
    ∧ Completes (.sNLoad n) s { s.afterPush .param (BitVec.ofInt 16 n.toInt) with pc := s.pc + 2#16 }
        (s.spillsTo .param)

/-- R53, R54, R203, R205 (decisions D8, D9, D10): PUSHPS and PUSHRS push each of the ten registers as it was before the
instruction, in the state after its fetch (log entry 15). -/
def Obligations.RegisterPushes : Prop :=
  ∀ (s : State) (r : Reg) (v : Word), s.mem.wf = true →
    (r, v) ∈ [(.pc, s.pc), (.ppc, s.ppc), (.hp, s.hp), (.psp, s.ps.ptr), (.psc, s.ps.ctr), (.rsp, s.rs.ptr),
      (.rsc, s.rs.ctr), (.ea, s.ea), (.rr, s.rr),
      (.flags, BitVec.ofNat 16 (s.flags.ec.toNat * 1024 + s.cfg.xBits.toNat * 256 + s.flags.ee.toNat * 128
        + s.flags.ie.toNat * 64 + s.flags.i.toNat * 32 + s.flags.e.toNat * 16 + s.flags.o.toNat * 8
        + s.flags.s.toNat * 4 + s.flags.z.toNat * 2 + s.flags.c.toNat))] →
    (s.pushReady .param →
      Completes (.pushPs r) s { s.afterPush .param v with pc := s.pc + 2#16 } (s.spillsTo .param))
    ∧ (s.pushReady .ret →
      Completes (.pushRs r) s { s.afterPush .ret v with pc := s.pc + 2#16 } (s.spillsTo .ret))

/-- R53, R54, R204, R206 (decisions D9, D10, D32): POPPS and POPRS: the whole pop, then the register takes the popped
word, so that it stands even in the popped stack's own pointer or counter; FLAGS takes bits 15:10 and 7:0; an even
word popped into PC is a jump. -/
def Obligations.RegisterPops : Prop :=
  ∀ (s : State) (k : StackId), s.popReady k →
    let i (r : Reg) : Instr := match k with
      | .param => .popPs r
      | .ret => .popRs r
    let v := (s.stack k).regs.e0
    let t : State := { s.afterPop k with pc := s.pc + 2#16 }
    Completes (i .ppc) s { t with ppc := v } nowhere
    ∧ Completes (i .hp) s { t with hp := v } nowhere
    ∧ Completes (i .psp) s { t with ps := { t.ps with ptr := v } } nowhere
    ∧ Completes (i .psc) s { t with ps := { t.ps with ctr := v } } nowhere
    ∧ Completes (i .rsp) s { t with rs := { t.rs with ptr := v } } nowhere
    ∧ Completes (i .rsc) s { t with rs := { t.rs with ctr := v } } nowhere
    ∧ Completes (i .ea) s { t with ea := v } nowhere
    ∧ Completes (i .rr) s { t with rr := v } nowhere
    ∧ Completes (i .flags) s { t with
        flags := { c := v.getLsbD 0, z := v.getLsbD 1, s := v.getLsbD 2, o := v.getLsbD 3, e := v.getLsbD 4,
                   i := v.getLsbD 5, ie := v.getLsbD 6, ee := v.getLsbD 7, ec := v.extractLsb' 10 6 } } nowhere
    ∧ (isOdd v = false → Completes (i .pc) s { t with pc := v } nowhere)

/-- R192, R198, R199, R191 (R24 for the pop): DEL, PTOR and RTOP. -/
def Obligations.DeleteAndTransfers : Prop :=
  ∀ s : State, s.mem.wf = true →
    (s.popReady .param → Completes .del s { s.afterPop .param with pc := s.pc + 2#16 } nowhere)
    ∧ (s.popReady .param → s.pushReady .ret →
        Completes .ptor s { (s.afterPop .param).afterPush .ret s.p0 with pc := s.pc + 2#16 } (s.spillsTo .ret))
    ∧ (s.popReady .ret → s.pushReady .param →
        Completes .rtop s { (s.afterPop .ret).afterPush .param s.r0 with pc := s.pc + 2#16 } (s.spillsTo .param))

/-- R207 (decision D30): SET of C, Z, S, O, E and IE sets that bit only. -/
def Obligations.SetOneFlag : Prop :=
  ∀ s : State,
    Completes (.set .c) s { s with pc := s.pc + 2#16, flags := { s.flags with c := true } } nowhere
    ∧ Completes (.set .z) s { s with pc := s.pc + 2#16, flags := { s.flags with z := true } } nowhere
    ∧ Completes (.set .s) s { s with pc := s.pc + 2#16, flags := { s.flags with s := true } } nowhere
    ∧ Completes (.set .o) s { s with pc := s.pc + 2#16, flags := { s.flags with o := true } } nowhere
    ∧ Completes (.set .e) s { s with pc := s.pc + 2#16, flags := { s.flags with e := true } } nowhere
    ∧ Completes (.set .ie) s { s with pc := s.pc + 2#16, flags := { s.flags with ie := true } } nowhere

/-- R208: CLEAR of any of the eight flags clears that bit only, with the encoding of each and none for m = 8 to 15. -/
def Obligations.ClearOneFlag : Prop :=
  (∀ p ∈ [(0xD500, FlagSel.c), (0xD510, .z), (0xD520, .s), (0xD530, .o), (0xD540, .e), (0xD550, .i), (0xD560, .ie),
      (0xD570, .ee)], decodeTableWord 16 p.1 = some (.clear p.2))
  ∧ (∀ w ∈ [0xD580, 0xD590, 0xD5A0, 0xD5B0, 0xD5C0, 0xD5D0, 0xD5E0, 0xD5F0], decodeTableWord 16 w = none)
  ∧ ∀ s : State,
    Completes (.clear .c) s { s with pc := s.pc + 2#16, flags := { s.flags with c := false } } nowhere
    ∧ Completes (.clear .z) s { s with pc := s.pc + 2#16, flags := { s.flags with z := false } } nowhere
    ∧ Completes (.clear .s) s { s with pc := s.pc + 2#16, flags := { s.flags with s := false } } nowhere
    ∧ Completes (.clear .o) s { s with pc := s.pc + 2#16, flags := { s.flags with o := false } } nowhere
    ∧ Completes (.clear .e) s { s with pc := s.pc + 2#16, flags := { s.flags with e := false } } nowhere
    ∧ Completes (.clear .i) s { s with pc := s.pc + 2#16, flags := { s.flags with i := false } } nowhere
    ∧ Completes (.clear .ie) s { s with pc := s.pc + 2#16, flags := { s.flags with ie := false } } nowhere
    ∧ Completes (.clear .ee) s { s with pc := s.pc + 2#16, flags := { s.flags with ee := false } } nowhere

/-- R202: FLAG replaces P0 by the condition's value and writes no flag, with its encoding. -/
def Obligations.FlagReplacesP0 : Prop :=
  (∀ k : Cond, decode [0xFF#8, 0x0#4 ++ k.code] = .ok (.flag k, []))
  ∧ ∀ (s : State) (k : Cond),
    Completes (.flag k) s { s with
      pc := s.pc + 2#16
      ps := { s.ps with regs := { s.ps.regs with e0 := if s.cond k = true then 0x0001#16 else 0x0000#16 } } } nowhere

/-! ## Loads and stores (42_load_store.md) -/

/-- R232, R234 to R236 (R23 for the push): the pushing loads with their condition met; Z becomes 1. -/
def Obligations.PushingLoads : Prop :=
  ∀ (s : State) (n : Word) (k : Cond), s.mem.wf = true → s.cond k = true → s.pushReady .param →
    (s.hasWord n →
      let u := s.edacReport n
      Completes (.cLoad n k) s { u.afterPush .param (s.mem.readWord n.toNat) with
        pc := s.pc + 4#16, flags := { u.flags with z := true } } (s.spillsTo .param))
    ∧ (s.hasByte n →
      let u := s.edacReport n
      Completes (.cLoadB n k) s { u.afterPush .param (BitVec.ofNat 16 (s.mem.read n.toNat).toNat) with
        pc := s.pc + 4#16, flags := { u.flags with z := true } } (s.spillsTo .param))
    ∧ Completes (.cNLoad n k) s { s.afterPush .param n with
        pc := s.pc + 4#16, flags := { s.flags with z := true } } (s.spillsTo .param)

/-- R232, R234 to R236, R242, R243, R292, R293, R296, R297: a 4-byte conditional load, store, input or output whose
condition is not met clears Z, steps over its operand and does nothing else, whatever the operand and PSC are. -/
def Obligations.LongFormsNotMetClearZ : Prop :=
  ∀ (s : State) (n : Word) (k : Cond), s.cond k = false →
    ∀ i ∈ [Instr.cLoad n k, .cLoadB n k, .cNLoad n k, .cStore n k, .cStoreB n k, .cIn n k, .cInB n k, .cOut n k,
      .cOutB n k],
      Completes i s { s with pc := s.pc + 4#16, flags := { s.flags with z := false } } nowhere

/-- R237, R238, R239, R27 (decisions D24, D35): the loads that replace P0; they look at no counter. -/
def Obligations.ReplacingLoads : Prop :=
  ∀ (s : State) (k : Cond) (abc : BitVec 12),
    (s.cond k = true → s.hasWord s.p0 →
      let u := s.edacReport s.p0
      Completes (.cpLoad k) s { u with
        pc := s.pc + 2#16, flags := { u.flags with z := true }
        ps := { s.ps with regs := { s.ps.regs with e0 := s.mem.readWord s.p0.toNat } } } nowhere)
    ∧ (s.cond k = true → s.hasByte s.p0 →
      let u := s.edacReport s.p0
      Completes (.cpLoadB k) s { u with
        pc := s.pc + 2#16, flags := { u.flags with z := true }
        ps := { s.ps with regs := { s.ps.regs with
          e0 := BitVec.ofNat 16 (s.mem.read s.p0.toNat).toNat } } } nowhere)
    ∧ (s.hasWord (abc.setWidth 16) →
      Completes (.sLoad abc) s { s.edacReport (abc.setWidth 16) with
        pc := s.pc + 2#16
        ps := { s.ps with regs := { s.ps.regs with e0 := s.mem.readWord abc.toNat } } } nowhere)

/-- R237, R238, R294, R295 (R24 for the pop, decision D4): cpLOAD, cpLOADB, cpIN and cpINB with their condition not met
pop their operand and clear Z. -/
def Obligations.StackFormsNotMetPop : Prop :=
  ∀ (s : State) (k : Cond), s.cond k = false → s.popReady .param →
    let u := s.afterPop .param
    ∀ i ∈ [Instr.cpLoad k, .cpLoadB k, .cpIn k, .cpInB k],
      Completes i s { u with pc := s.pc + 2#16, flags := { u.flags with z := false } } nowhere

/-- R242, R243, R246 (R24 for the pop): cSTORE and cSTOREB with their condition met, and sSTORE, which keeps P0. -/
def Obligations.AbsoluteStores : Prop :=
  ∀ (s : State) (n : Word) (k : Cond) (abc : BitVec 12), s.mem.wf = true →
    (s.cond k = true → s.popReady .param → s.hasWord n →
      let u := ({ s with mem := s.mem.writeWord n.toNat s.p0 } : State).afterPop .param
      Completes (.cStore n k) s { u with pc := s.pc + 4#16, flags := { u.flags with z := true } } (wordAt n))
    ∧ (s.cond k = true → s.popReady .param → s.hasByte n →
      let u := ({ s with mem := s.mem.write n.toNat (s.p0.extractLsb' 0 8) } : State).afterPop .param
      Completes (.cStoreB n k) s { u with pc := s.pc + 4#16, flags := { u.flags with z := true } } (byteAt n))
    ∧ (s.hasWord (abc.setWidth 16) →
      Completes (.sStore abc) s { s with pc := s.pc + 2#16, mem := s.mem.writeWord abc.toNat s.p0 }
        (wordAt (abc.setWidth 16)))

/-- R244, R245, R345 (R24 for the pops, decision D4): cpSTORE and cpSTOREB store P1 at P0 if the condition is met; two
entries are popped and Z takes the condition on both paths. -/
def Obligations.StackStores : Prop :=
  ∀ (s : State) (k : Cond), s.mem.wf = true → s.popTwiceReady .param →
    (s.cond k = true → s.hasWord s.p0 →
      let u := (({ s with mem := s.mem.writeWord s.p0.toNat s.p1 } : State).afterPop .param).afterPop .param
      Completes (.cpStore k) s { u with pc := s.pc + 2#16, flags := { u.flags with z := true } } (wordAt s.p0))
    ∧ (s.cond k = true → s.hasByte s.p0 →
      let u := (({ s with mem := s.mem.write s.p0.toNat (s.p1.extractLsb' 0 8) } : State).afterPop .param).afterPop
        .param
      Completes (.cpStoreB k) s { u with pc := s.pc + 2#16, flags := { u.flags with z := true } } (byteAt s.p0))
    ∧ (s.cond k = false →
      let u := (s.afterPop .param).afterPop .param
      Completes (.cpStore k) s { u with pc := s.pc + 2#16, flags := { u.flags with z := false } } nowhere
      ∧ Completes (.cpStoreB k) s { u with pc := s.pc + 2#16, flags := { u.flags with z := false } } nowhere)

/-! ## Control transfer (43_control_transfer.md) -/

/-- R260, R263, R264, R267, R268, R269 (decision D14 for the wrap): branches and jumps, taken to an even target and not
taken. -/
def Obligations.BranchesAndJumps : Prop :=
  ∀ (s : State) (k : Cond) (ee : Byte) (x : BitVec 12) (n : Word),
    (s.cond k = true →
      let target := s.pc + 2#16 + ee.signExtend 16
      isOdd target = false → Completes (.cBr ee k) s { s with pc := target } nowhere)
    ∧ (s.cond k = false → Completes (.cBr ee k) s { s with pc := s.pc + 2#16 } nowhere)
    ∧ (let target := s.pc + 2#16 + x.signExtend 16
      isOdd target = false → Completes (.sBr x) s { s with pc := target } nowhere)
    ∧ (s.cond k = true → isOdd n = false → Completes (.cJmp n k) s { s with pc := n } nowhere)
    ∧ (s.cond k = false → Completes (.cJmp n k) s { s with pc := s.pc + 4#16 } nowhere)
    ∧ (isOdd (x.setWidth 16) = false → Completes (.sJmp x) s { s with pc := BitVec.ofNat 16 x.toNat } nowhere)
    ∧ (s.cond k = true → s.popReady .param → isOdd s.p0 = false →
      Completes (.cpJmp k) s { s.afterPop .param with pc := s.p0 } nowhere)
    ∧ (s.cond k = false → s.popReady .param →
      Completes (.cpJmp k) s { s.afterPop .param with pc := s.pc + 2#16 } nowhere)

/-- R262, R265, R266, R270, R271, R272 (R25 for the push; decision D29 for the base of cpBSR, log entry 39): calls push the
address of the instruction that follows and go to an even target; the stack-supplied target is popped on both paths. -/
def Obligations.Calls : Prop :=
  ∀ (s : State) (k : Cond) (x : BitVec 12) (n : Word), s.mem.wf = true →
    (s.pushReady .ret → isOdd (x.setWidth 16) = false →
      Completes (.sJsr x) s { s.afterPush .ret (s.pc + 2#16) with pc := BitVec.ofNat 16 x.toNat } (s.spillsTo .ret))
    ∧ (s.pushReady .ret →
      let target := s.pc + 2#16 + x.signExtend 16
      isOdd target = false →
      Completes (.sBsr x) s { s.afterPush .ret (s.pc + 2#16) with pc := target } (s.spillsTo .ret))
    ∧ (s.cond k = true → s.pushReady .ret → isOdd n = false →
      Completes (.cJsr n k) s { s.afterPush .ret (s.pc + 4#16) with pc := n } (s.spillsTo .ret))
    ∧ (s.cond k = false → Completes (.cJsr n k) s { s with pc := s.pc + 4#16 } nowhere)
    ∧ (s.cond k = true → s.popReady .param → s.pushReady .ret → isOdd s.p0 = false →
      Completes (.cpJsr k) s { (s.afterPop .param).afterPush .ret (s.pc + 2#16) with pc := s.p0 } (s.spillsTo .ret))
    ∧ (s.cond k = true → s.popReady .param → s.pushReady .ret →
      let target := s.pc + 4#16 + s.p0
      isOdd target = false →
      Completes (.cpBsr k) s { (s.afterPop .param).afterPush .ret (s.pc + 2#16) with pc := target } (s.spillsTo .ret))
    ∧ (s.cond k = false → s.popReady .param →
      Completes (.cpJsr k) s { s.afterPop .param with pc := s.pc + 2#16 } nowhere
      ∧ Completes (.cpBsr k) s { s.afterPop .param with pc := s.pc + 2#16 } nowhere)

/-- R273, R262, R352 (R26 for the pop; decision D31 for the return from handlers, log entry 37): cRTS taken to an even
address and not taken; taken it is the same as `PC POPRS`, the other instruction that returns. -/
def Obligations.ReturnFromSubroutine : Prop :=
  ∀ (s : State) (k : Cond),
    (s.cond k = true → s.popReady .ret → isOdd s.r0 = false →
      Completes (.cRts k) s { s.afterPop .ret with pc := s.r0 } nowhere)
    ∧ (s.cond k = false → Completes (.cRts k) s { s with pc := s.pc + 2#16 } nowhere)
    ∧ (s.cond k = true → exec (.cRts k) s = exec (.popRs .pc) s)

/-! ## Input and output (44_io.md) -/

/-- R82, R83, R84, R291 to R295 (decision D16): an input whose condition is met makes one host call and takes its answer; Z
becomes 1. The answer is the next one of the host's script, or any word where the script has ended (the model's
choice, log entry 7); nothing else of the machine is touched. -/
def Obligations.Inputs : Prop :=
  ∀ (s : State) (n : Word) (k : Cond),
    let v := s.portAnswer.1
    let b := v.extractLsb' 0 8
    let heard (call : PortCall) : State := s.portAnswer.2.logPort call
    (∀ w rest, s.env.portIn = w :: rest → s.portAnswer = (w, { s with env := { s.env with portIn := rest } }))
    ∧ (s.env.portIn = [] → ∃ w, s.portAnswer = (w, { s with free := s.free + 1 }))
    ∧ (s.cond k = true → s.mem.wf = true →
    (s.pushReady .param → isOdd n = false →
      Completes (.cIn n k) s { (heard (.read16 n v)).afterPush .param v with
        pc := s.pc + 4#16, flags := { s.flags with z := true } } (s.spillsTo .param))
    ∧ (s.pushReady .param →
      Completes (.cInB n k) s { (heard (.read8 n b)).afterPush .param (BitVec.ofNat 16 b.toNat) with
        pc := s.pc + 4#16, flags := { s.flags with z := true } } (s.spillsTo .param))
    ∧ (isOdd s.p0 = false →
      Completes (.cpIn k) s { heard (.read16 s.p0 v) with
        pc := s.pc + 2#16, flags := { s.flags with z := true }
        ps := { s.ps with regs := { s.ps.regs with e0 := v } } } nowhere)
    ∧ Completes (.cpInB k) s { heard (.read8 s.p0 b) with
        pc := s.pc + 2#16, flags := { s.flags with z := true }
        ps := { s.ps with regs := { s.ps.regs with e0 := BitVec.ofNat 16 b.toNat } } } nowhere)

/-- R291, R296 to R299 (R24 for the pops, decision D4): an output whose condition is met makes one host call; cOUT and cOUTB
set Z and pop one entry, cpOUT and cpOUTB write no flag and pop two entries on both paths. -/
def Obligations.Outputs : Prop :=
  ∀ (s : State) (n : Word) (k : Cond),
    (s.cond k = true → s.popReady .param → isOdd n = false →
      let u := (s.logPort (.write16 n s.p0)).afterPop .param
      Completes (.cOut n k) s { u with pc := s.pc + 4#16, flags := { u.flags with z := true } } nowhere)
    ∧ (s.cond k = true → s.popReady .param →
      let u := (s.logPort (.write8 n (s.p0.extractLsb' 0 8))).afterPop .param
      Completes (.cOutB n k) s { u with pc := s.pc + 4#16, flags := { u.flags with z := true } } nowhere)
    ∧ (s.cond k = true → s.popTwiceReady .param → isOdd s.p0 = false →
      Completes (.cpOut k) s
        { ((s.logPort (.write16 s.p0 s.p1)).afterPop .param).afterPop .param with pc := s.pc + 2#16 } nowhere)
    ∧ (s.cond k = true → s.popTwiceReady .param →
      Completes (.cpOutB k) s
        { ((s.logPort (.write8 s.p0 (s.p1.extractLsb' 0 8))).afterPop .param).afterPop .param with
          pc := s.pc + 2#16 } nowhere)
    ∧ (s.cond k = false → s.popTwiceReady .param →
      Completes (.cpOut k) s { (s.afterPop .param).afterPop .param with pc := s.pc + 2#16 } nowhere
      ∧ Completes (.cpOutB k) s { (s.afterPop .param).afterPop .param with pc := s.pc + 2#16 } nowhere)

/-! ## IPS support and system (45_ips_and_system.md) -/

/-- R311, R312, R315 (R23 and R25 for the pushes): DFX, 2BLIT and JPPC. -/
def Obligations.IpsListInstructions : Prop :=
  ∀ s : State, s.mem.wf = true →
    (s.pushReady .ret →
      Completes .dfx s { s.afterPush .ret s.ppc with pc := s.pc + 2#16, ppc := s.hp } (s.spillsTo .ret))
    ∧ (s.hasWord s.ppc → s.pushReady .param →
      Completes .twoBlit s { (s.edacReport s.ppc).afterPush .param (s.mem.readWord s.ppc.toNat) with
        pc := s.pc + 2#16, ppc := s.ppc + 2#16 } (s.spillsTo .param))
    ∧ (s.hasWord s.ppc →
      Completes .jppc s { s.edacReport s.ppc with
        pc := s.pc + 2#16, ppc := s.mem.readWord s.ppc.toNat } nowhere)

/-- R313, R314, R316 (decisions D32, D34): EMULATE, EXECUTE and PREPARE with their condition met (the word loaded into PC
even), and not met. -/
def Obligations.IpsInnerInterpreter : Prop :=
  ∀ (s : State) (k : Cond),
    let h := s.mem.readWord s.ppc.toNat
    (s.cond k = true → s.cfg.hasEmulate = true → s.hasWord s.ppc → s.hasWord h →
      let target := s.mem.readWord h.toNat
      isOdd target = false →
      Completes (.emulate k) s { (s.edacReport s.ppc).edacReport h with
        pc := target, ppc := s.ppc + 2#16, hp := h + 2#16 } nowhere)
    ∧ (s.cond k = true → s.hasWord s.hp →
      let target := s.mem.readWord s.hp.toNat
      isOdd target = false →
      Completes (.execute k) s { s.edacReport s.hp with pc := target, hp := s.hp + 2#16 } nowhere)
    ∧ (s.cond k = true → s.hasWord s.ppc →
      let u := s.edacReport s.ppc
      Completes (.prepare k) s { u with
        pc := s.pc + 2#16, hp := h, ppc := s.ppc + 2#16, flags := { u.flags with z := true } } nowhere)
    ∧ (s.cond k = false → s.cfg.hasEmulate = true → Completes (.emulate k) s { s with pc := s.pc + 2#16 } nowhere)
    ∧ (s.cond k = false → Completes (.execute k) s { s with pc := s.pc + 2#16 } nowhere)
    ∧ (s.cond k = false →
      Completes (.prepare k) s { s with pc := s.pc + 2#16, flags := { s.flags with z := false } } nowhere)

/-- R314: with the condition met, PREPARE followed by `EQ EXECUTE` has the effect of EMULATE, but that Z is left 1. -/
def Obligations.PrepareThenExecuteIsEmulate : Prop :=
  ∀ (s : State) (k : Cond), s.cond k = true → s.cfg.hasEmulate = true → s.hasWord s.ppc →
    s.hasWord (s.mem.readWord s.ppc.toNat) →
    isOdd (s.mem.readWord (s.mem.readWord s.ppc.toNat).toNat) = false →
    ∃ t u v, exec (.prepare k) s = .next t ∧ exec (.execute .eq) t = .next u ∧ exec (.emulate k) s = .next v
      ∧ u = { v with flags := { v.flags with z := true } }

/-- R317 (decision D36): REFRESH reads and writes back the word at RR and steps RR; no byte of memory changes. -/
def Obligations.RefreshWashesOneWord : Prop :=
  ∀ (s : State) (k : Cond), s.mem.wf = true →
    (s.cond k = true → s.hasWord s.rr →
      Completes (.refresh k) s { s.edacReport s.rr with pc := s.pc + 2#16, rr := s.rr + 2#16 } nowhere)
    ∧ (s.cond k = false → Completes (.refresh k) s { s with pc := s.pc + 2#16 } nowhere)

/-! ## Where the machine stops -/

/-- R77 (decision D13, log entry 10): a word access at an odd address is refused, each with the address it was given. -/
def Obligations.OddWordAccessIsRefused : Prop :=
  ∀ (s : State) (n : Word) (k : Cond) (abc : BitVec 12),
    (s.cond k = true → isOdd n = true → exec (.cLoad n k) s = .refused (.oddWordAccess n))
    ∧ (s.cond k = true → isOdd s.p0 = true → exec (.cpLoad k) s = .refused (.oddWordAccess s.p0))
    ∧ (isOdd (abc.setWidth 16) = true →
        exec (.sLoad abc) s = .refused (.oddWordAccess (abc.setWidth 16))
        ∧ exec (.sStore abc) s = .refused (.oddWordAccess (abc.setWidth 16)))
    ∧ (s.cond k = true → s.ps.ctr ≠ 0#16 → isOdd n = true → exec (.cStore n k) s = .refused (.oddWordAccess n))
    ∧ (s.cond k = true → 2 ≤ s.ps.ctr.toNat → isOdd s.p0 = true →
        exec (.cpStore k) s = .refused (.oddWordAccess s.p0))
    ∧ (isOdd s.ppc = true → exec .twoBlit s = .refused (.oddWordAccess s.ppc)
        ∧ exec .jppc s = .refused (.oddWordAccess s.ppc))
    ∧ (s.cond k = true → isOdd s.ppc = true → exec (.prepare k) s = .refused (.oddWordAccess s.ppc)
        ∧ (s.cfg.hasEmulate = true → exec (.emulate k) s = .refused (.oddWordAccess s.ppc)))
    ∧ (s.cond k = true → s.cfg.hasEmulate = true → s.hasWord s.ppc →
        isOdd (s.mem.readWord s.ppc.toNat) = true →
        exec (.emulate k) s = .refused (.oddWordAccess (s.mem.readWord s.ppc.toNat)))
    ∧ (s.cond k = true → isOdd s.hp = true → exec (.execute k) s = .refused (.oddWordAccess s.hp))
    ∧ (s.cond k = true → isOdd s.rr = true → exec (.refresh k) s = .refused (.oddWordAccess s.rr))

/-- R77, R23 to R26, R351 (decision D13, log entry 10): a spill or a refill through an odd pointer is refused, whichever
instruction pushes or pops; so are the entries of the underflow traps and of the interrupt (R344, with the script of
boundaries of log entry 4) when they spill; then the instructions that reach the push or pop without another test. -/
def Obligations.OddStackPointerIsRefused : Prop :=
  ∀ (s : State) (n : Byte) (r : Reg) (x : BitVec 12) (ext : Bool) (rest : List Boundary),
    (∀ (k : StackId) (v : Word), 16 ≤ (s.stack k).ctr.toNat → isOdd (s.stack k).ptr = true →
      push k v s = .error (.refused (.oddWordAccess (s.stack k).ptr)))
    ∧ (∀ k : StackId, 16 < (s.stack k).ctr.toNat → isOdd ((s.stack k).ptr + 2#16) = true →
      pop k s = .error (.halt (.refused (.oddWordAccess ((s.stack k).ptr + 2#16)))))
    ∧ (16 ≤ s.ps.ctr.toNat → isOdd s.ps.ptr = true →
      ∀ i ∈ [Instr.dupl, .sot, .idx, .uNLoad n, .sNLoad n, .pushPs r], exec i s = .refused (.oddWordAccess s.ps.ptr))
    ∧ (16 ≤ s.rs.ctr.toNat → isOdd s.rs.ptr = true →
      (∀ i ∈ [Instr.pushRs r, .dfx], exec i s = .refused (.oddWordAccess s.rs.ptr))
      ∧ (isOdd (x.setWidth 16) = false → exec (.sJsr x) s = .refused (.oddWordAccess s.rs.ptr))
      ∧ (isOdd (s.pc + 2#16 + x.signExtend 16) = false → exec (.sBsr x) s = .refused (.oddWordAccess s.rs.ptr))
      ∧ (∀ i, paramUnderflows i s → exec i s = .refused (.oddWordAccess s.rs.ptr))
      ∧ (s.flags.ie = true → interrupt s = .error (.refused (.oddWordAccess s.rs.ptr)))
      ∧ (s.flags.ie = true → s.env.boundary = ⟨false, ext, true⟩ :: rest →
          step s = .refused (.oddWordAccess s.rs.ptr)))
    ∧ (16 < s.ps.ctr.toNat → isOdd (s.ps.ptr + 2#16) = true →
      ∀ i ∈ [Instr.del, .addP, .adcP, .subP, .sbcP, .rsubP, .rsbcP, .andP, .orP, .eorP, .ptor],
        exec i s = .refused (.oddWordAccess (s.ps.ptr + 2#16)))
    ∧ (16 < s.rs.ctr.toNat → isOdd (s.rs.ptr + 2#16) = true →
      exec .rtop s = .refused (.oddWordAccess (s.rs.ptr + 2#16)))

/-- R84 (decision D16, log entry 11): a word access to an odd port is refused and makes no host call; R207 (decision D30, log
entry 13): SET of I or EE is refused; R9, R313 (decision D34, log entry 13): EMULATE where it is not implemented. R70
(decision D15, log entry 12): an access at or above MEM_BYTES faults: every byte and word access, a word also when only
its upper byte is absent; every spill, refill and fetch, with nothing presented at its boundary (log entry 4); and the
instructions whose access comes first. -/
def Obligations.RefusedFormsAndAbsentMemory : Prop :=
  ∀ (s : State) (n : Word) (k : Cond) (abc : BitVec 12),
    (s.cond k = true → isOdd n = true → exec (.cIn n k) s = .refused (.oddPortAccess n)
      ∧ (s.ps.ctr ≠ 0#16 → exec (.cOut n k) s = .refused (.oddPortAccess n)))
    ∧ (s.cond k = true → isOdd s.p0 = true → exec (.cpIn k) s = .refused (.oddPortAccess s.p0)
      ∧ (2 ≤ s.ps.ctr.toNat → exec (.cpOut k) s = .refused (.oddPortAccess s.p0)))
    ∧ exec (.set .i) s = .refused (.unpredictableSet .i) ∧ exec (.set .ee) s = .refused (.unpredictableSet .ee)
    ∧ (s.cfg.hasEmulate = false → exec (.emulate k) s = .refused .emulateAbsent)
    -- every access
    ∧ (s.cfg.memBytes ≤ n.toNat →
        memRead8 n s = .error (.fault (.absentMemory n))
        ∧ ∀ v : Byte, memWrite8 n v s = .error (.fault (.absentMemory n)))
    ∧ (isOdd n = false → s.cfg.memBytes ≤ n.toNat + 1 →
        memRead16 n s = .error (.fault (.absentMemory n))
        ∧ ∀ v : Word, memWrite16 n v s = .error (.fault (.absentMemory n)))
    -- spills, refills, the fetch
    ∧ (∀ (id : StackId) (v : Word), 16 ≤ (s.stack id).ctr.toNat → isOdd (s.stack id).ptr = false →
        s.cfg.memBytes ≤ (s.stack id).ptr.toNat + 1 →
        push id v s = .error (.fault (.absentMemory (s.stack id).ptr)))
    ∧ (∀ id : StackId, 16 < (s.stack id).ctr.toNat → isOdd ((s.stack id).ptr + 2#16) = false →
        s.cfg.memBytes ≤ ((s.stack id).ptr + 2#16).toNat + 1 →
        pop id s = .error (.halt (.fault (.absentMemory ((s.stack id).ptr + 2#16)))))
    ∧ (s.quiet → isOdd s.pc = false →
        (s.cfg.memBytes ≤ s.pc.toNat → step s = .fault (.absentMemory s.pc))
        ∧ (s.cfg.memBytes = s.pc.toNat + 1 → step s = .fault (.absentMemory (s.pc + 1#16)))
        ∧ (s.hasWord s.pc → isLong (s.mem.read s.pc.toNat) = true → s.cfg.memBytes ≤ (s.pc + 2#16).toNat + 1 →
            step s = .fault (.absentMemory (s.pc + 2#16))))
    -- absolute and short addresses
    ∧ (s.cond k = true → s.cfg.memBytes ≤ n.toNat →
        exec (.cLoadB n k) s = .fault (.absentMemory n)
        ∧ (s.ps.ctr ≠ 0#16 → exec (.cStoreB n k) s = .fault (.absentMemory n)))
    ∧ (s.cond k = true → isOdd n = false → s.cfg.memBytes ≤ n.toNat + 1 →
        exec (.cLoad n k) s = .fault (.absentMemory n)
        ∧ (s.ps.ctr ≠ 0#16 → exec (.cStore n k) s = .fault (.absentMemory n)))
    ∧ (isOdd (abc.setWidth 16) = false → s.cfg.memBytes ≤ abc.toNat + 1 →
        exec (.sLoad abc) s = .fault (.absentMemory (abc.setWidth 16))
        ∧ exec (.sStore abc) s = .fault (.absentMemory (abc.setWidth 16)))
    -- addresses from the stack
    ∧ (s.cond k = true → s.cfg.memBytes ≤ s.p0.toNat →
        exec (.cpLoadB k) s = .fault (.absentMemory s.p0)
        ∧ (2 ≤ s.ps.ctr.toNat → exec (.cpStoreB k) s = .fault (.absentMemory s.p0)))
    ∧ (s.cond k = true → isOdd s.p0 = false → s.cfg.memBytes ≤ s.p0.toNat + 1 →
        exec (.cpLoad k) s = .fault (.absentMemory s.p0)
        ∧ (2 ≤ s.ps.ctr.toNat → exec (.cpStore k) s = .fault (.absentMemory s.p0)))
    -- PPC, the header, HP, RR
    ∧ (isOdd s.ppc = false → s.cfg.memBytes ≤ s.ppc.toNat + 1 →
        exec .twoBlit s = .fault (.absentMemory s.ppc) ∧ exec .jppc s = .fault (.absentMemory s.ppc)
        ∧ (s.cond k = true → exec (.prepare k) s = .fault (.absentMemory s.ppc))
        ∧ (s.cond k = true → s.cfg.hasEmulate = true → exec (.emulate k) s = .fault (.absentMemory s.ppc)))
    ∧ (s.cond k = true → s.cfg.hasEmulate = true → s.hasWord s.ppc →
        isOdd (s.mem.readWord s.ppc.toNat) = false →
        s.cfg.memBytes ≤ (s.mem.readWord s.ppc.toNat).toNat + 1 →
        exec (.emulate k) s = .fault (.absentMemory (s.mem.readWord s.ppc.toNat)))
    ∧ (s.cond k = true → isOdd s.hp = false → s.cfg.memBytes ≤ s.hp.toNat + 1 →
        exec (.execute k) s = .fault (.absentMemory s.hp))
    ∧ (s.cond k = true → isOdd s.rr = false → s.cfg.memBytes ≤ s.rr.toNat + 1 →
        exec (.refresh k) s = .fault (.absentMemory s.rr))
end

