-- ==== Sys2Proof/Laws/Memory.lean ====
section
/-! SUPPORT. The laws of the memory: read after write, and the canonical form (`Memory.wf`) that every operation
keeps. -/

namespace Sys2Proof.Machine

theorem Memory.wfFrom_le {m : Memory} {i j : Nat} (h : Memory.wfFrom j m = true) (hij : i ≤ j) :
    Memory.wfFrom i m = true := by
  cases m with
  | nil => rfl
  | cons c m =>
    obtain ⟨a, v⟩ := c
    simp only [Memory.wfFrom, Bool.and_eq_true, decide_eq_true_eq] at h ⊢
    exact ⟨⟨⟨by omega, h.1.1.2⟩, h.1.2⟩, h.2⟩

/-- Below the first possible address everything is blank. -/
theorem Memory.read_below {m : Memory} {i a : Nat} (h : Memory.wfFrom i m = true) (ha : a < i) :
    m.read a = Memory.blank := by
  cases m with
  | nil => rfl
  | cons c m =>
    obtain ⟨b, v⟩ := c
    simp only [Memory.wfFrom, Bool.and_eq_true, decide_eq_true_eq] at h
    have : a < b := by omega
    simp [Memory.read, this]

theorem Memory.wfFrom_cons {m : Memory} {i a : Nat} {v : Byte} (h : Memory.wfFrom (a + 1) m = true) (hi : i ≤ a)
    (ha : a < 65536) : Memory.wfFrom i (Memory.cons a v m) = true := by
  unfold Memory.cons
  split
  · exact Memory.wfFrom_le h (by omega)
  · next hv => simp [Memory.wfFrom, hi, ha, hv, h]

/-- A write keeps the canonical form. -/
theorem Memory.wfFrom_write (m : Memory) (i a : Nat) (v : Byte) (h : Memory.wfFrom i m = true) (hi : i ≤ a)
    (ha : a < 65536) : Memory.wfFrom i (m.write a v) = true := by
  induction m generalizing i with
  | nil => exact Memory.wfFrom_cons rfl hi ha
  | cons c m ih =>
    obtain ⟨b, w⟩ := c
    have h' := h
    simp only [Memory.wfFrom, Bool.and_eq_true, decide_eq_true_eq] at h'
    unfold Memory.write
    split
    · next hab =>
      refine Memory.wfFrom_cons ?_ hi ha
      simp only [Memory.wfFrom, Bool.and_eq_true, decide_eq_true_eq]
      exact ⟨⟨⟨by omega, h'.1.1.2⟩, h'.1.2⟩, h'.2⟩
    · split
      · next hab => subst hab; exact Memory.wfFrom_cons h'.2 hi ha
      · simp only [Memory.wfFrom, Bool.and_eq_true, decide_eq_true_eq]
        exact ⟨h'.1, ih _ h'.2 (by omega)⟩

theorem Memory.wf_write {m : Memory} {a : Nat} (v : Byte) (h : m.wf = true) (ha : a < 65536) :
    (m.write a v).wf = true := Memory.wfFrom_write m 0 a v h (by omega) ha

theorem Memory.wf_writeWord {m : Memory} {a : Nat} (v : Word) (h : m.wf = true) (ha : a + 1 < 65536) :
    (m.writeWord a v).wf = true := Memory.wf_write _ (Memory.wf_write _ h (by omega)) ha

theorem Memory.read_cons_same {m : Memory} {a : Nat} (v : Byte) (h : Memory.wfFrom (a + 1) m = true) :
    (Memory.cons a v m).read a = v := by
  unfold Memory.cons
  split
  · next hv => rw [hv]; exact Memory.read_below h (by omega)
  · simp [Memory.read]

theorem Memory.read_cons_ne {m : Memory} {a b : Nat} (v : Byte) (hab : b ≠ a) (h : Memory.wfFrom (a + 1) m = true) :
    (Memory.cons a v m).read b = m.read b := by
  unfold Memory.cons
  split
  · rfl
  · rcases Nat.lt_or_gt_of_ne hab with hlt | hgt
    · simp only [Memory.read, hlt, if_true]; exact (Memory.read_below h (by omega)).symm
    · simp [Memory.read, hab, Nat.lt_asymm hgt]

theorem Memory.read_write_from (m : Memory) (i a b : Nat) (v : Byte) (h : Memory.wfFrom i m = true) :
    (m.write a v).read b = if b = a then v else m.read b := by
  induction m generalizing i with
  | nil =>
    unfold Memory.write
    split
    · next hb => subst hb; exact Memory.read_cons_same v rfl
    · next hb => exact Memory.read_cons_ne v hb rfl
  | cons c m ih =>
    obtain ⟨d, w⟩ := c
    simp only [Memory.wfFrom, Bool.and_eq_true, decide_eq_true_eq] at h
    unfold Memory.write
    split
    · next had =>
      have hw : Memory.wfFrom (a + 1) ((d, w) :: m) = true := by
        simp only [Memory.wfFrom, Bool.and_eq_true, decide_eq_true_eq]
        exact ⟨⟨⟨by omega, h.1.1.2⟩, h.1.2⟩, h.2⟩
      split
      · next hb => subst hb; exact Memory.read_cons_same v hw
      · next hb => exact Memory.read_cons_ne v hb hw
    · split
      · next had =>
        subst had
        split
        · next hb => subst hb; exact Memory.read_cons_same v h.2
        · next hb =>
          rw [Memory.read_cons_ne v hb h.2]
          rcases Nat.lt_or_gt_of_ne hb with hlt | hgt
          · simp only [Memory.read, hlt, if_true]; exact Memory.read_below h.2 (by omega)
          · simp [Memory.read, hb, Nat.lt_asymm hgt]
      · next hnlt hne =>
        have hr := ih _ h.2
        by_cases hbd : b < d
        · have : b ≠ a := by omega
          simp [Memory.read, hbd, this]
        · by_cases hbd' : b = d
          · subst hbd'
            have : b ≠ a := fun hc => hne hc.symm
            simp [Memory.read, this]
          · simp only [Memory.read, hbd, hbd', if_false]
            exact hr

/-- Read after write: the byte written at its address, every other byte as before (R74). -/
theorem Memory.read_write {m : Memory} (a b : Nat) (v : Byte) (h : m.wf = true) :
    (m.write a v).read b = if b = a then v else m.read b := Memory.read_write_from m 0 a b v h

/-- Every byte outside a written word reads as before (R75). -/
theorem Memory.read_writeWord_other {m : Memory} {a b : Nat} (v : Word) (h : m.wf = true) (ha : a < 65536)
    (h0 : b ≠ a) (h1 : b ≠ a + 1) : (m.writeWord a v).read b = m.read b := by
  unfold Memory.writeWord
  rw [Memory.read_write _ _ _ (Memory.wf_write _ h ha), if_neg h1, Memory.read_write _ _ _ h, if_neg h0]

theorem wordOfBytes_low_high (v : Word) : wordOfBytes (lowByte v) (highByte v) = v := by
  unfold wordOfBytes lowByte highByte
  apply BitVec.eq_of_getLsbD_eq
  intro i hi
  rw [BitVec.getLsbD_append]
  by_cases h : i < 8
  · simp [h]
  · simp [h, show i - 8 < 8 by omega, show 8 + (i - 8) = i by omega]

theorem lowByte_wordOfBytes (lo hi : Byte) : lowByte (wordOfBytes lo hi) = lo := by
  unfold wordOfBytes lowByte
  apply BitVec.eq_of_getLsbD_eq
  intro i h
  rw [BitVec.getLsbD_extractLsb']
  change (decide (i < 8) && (hi ++ lo : BitVec (8 + 8)).getLsbD (0 + i)) = _
  rw [BitVec.getLsbD_append]
  simp [h]

theorem highByte_wordOfBytes (lo hi : Byte) : highByte (wordOfBytes lo hi) = hi := by
  unfold wordOfBytes highByte
  apply BitVec.eq_of_getLsbD_eq
  intro i h
  rw [BitVec.getLsbD_extractLsb']
  change (decide (i < 8) && (hi ++ lo : BitVec (8 + 8)).getLsbD (8 + i)) = _
  rw [BitVec.getLsbD_append]
  simp [h]

/-- A word written is read back (R73, R75). -/
theorem Memory.readWord_writeWord {m : Memory} {a : Nat} (v : Word) (h : m.wf = true) (ha : a < 65536) :
    (m.writeWord a v).readWord a = v := by
  unfold Memory.readWord Memory.writeWord
  rw [Memory.read_write _ _ _ (Memory.wf_write _ h ha), Memory.read_write _ _ _ (Memory.wf_write _ h ha),
    Memory.read_write _ _ _ h]
  simp [wordOfBytes_low_high]

/-- A canonical memory is told by what it reads as. -/
theorem Memory.ext_from (m m' : Memory) (i : Nat) (h : Memory.wfFrom i m = true) (h' : Memory.wfFrom i m' = true)
    (hr : ∀ a, m.read a = m'.read a) : m = m' := by
  induction m generalizing m' i with
  | nil =>
    cases m' with
    | nil => rfl
    | cons c m' =>
      obtain ⟨a, v⟩ := c
      simp only [Memory.wfFrom, Bool.and_eq_true, decide_eq_true_eq] at h'
      exact absurd (by simpa [Memory.read] using (hr a).symm) h'.1.2
  | cons c m ih =>
    obtain ⟨a, v⟩ := c
    cases m' with
    | nil =>
      simp only [Memory.wfFrom, Bool.and_eq_true, decide_eq_true_eq] at h
      exact absurd (by simpa [Memory.read] using hr a) h.1.2
    | cons c' m' =>
      obtain ⟨b, w⟩ := c'
      simp only [Memory.wfFrom, Bool.and_eq_true, decide_eq_true_eq] at h h'
      have hab : a = b := by
        rcases Nat.lt_trichotomy a b with hlt | heq | hgt
        · exact absurd (by simpa [Memory.read, hlt] using hr a) h.1.2
        · exact heq
        · exact absurd (by simpa [Memory.read, hgt] using (hr b).symm) h'.1.2
      subst hab
      have hvw : v = w := by simpa [Memory.read] using hr a
      subst hvw
      rw [ih m' (a + 1) h.2 h'.2]
      intro d
      have hd := hr d
      by_cases hlt : d < a + 1
      · rw [Memory.read_below h.2 hlt, Memory.read_below h'.2 hlt]
      · have h1 : ¬ d < a := by omega
        have h2 : d ≠ a := by omega
        simpa [Memory.read, h1, h2] using hd

/-- The write-back of a word that was just read changes nothing (R317). -/
theorem Memory.writeWord_readWord {m : Memory} {a : Nat} (h : m.wf = true) (ha : a + 1 < 65536) :
    m.writeWord a (m.readWord a) = m := by
  refine Memory.ext_from _ _ 0 (Memory.wf_writeWord _ h ha) h fun b => ?_
  have hlo : lowByte (m.readWord a) = m.read a := lowByte_wordOfBytes _ _
  have hhi : highByte (m.readWord a) = m.read (a + 1) := highByte_wordOfBytes _ _
  unfold Memory.writeWord
  rw [Memory.read_write _ _ _ (Memory.wf_write _ h (by omega)), Memory.read_write _ _ _ h, hlo, hhi]
  split
  · next hb => rw [hb]
  · split
    · next hb => rw [hb]
    · rfl

end Sys2Proof.Machine
end

