-- ==== Sys2Proof/Laws/State.lean ====
section
/-! SUPPORT. One lemma per field of the state for each named update (`Ops`, `Fetch`), so that no proof unfolds a
record update. -/

namespace Sys2Proof.Machine

/-! ## goto -/

@[simp] theorem State.goto_pc (s : State) (a : Word) : (s.goto a).pc = a := rfl
@[simp] theorem State.goto_ppc (s : State) (a : Word) : (s.goto a).ppc = s.ppc := rfl
@[simp] theorem State.goto_hp (s : State) (a : Word) : (s.goto a).hp = s.hp := rfl
@[simp] theorem State.goto_flags (s : State) (a : Word) : (s.goto a).flags = s.flags := rfl
@[simp] theorem State.goto_ps (s : State) (a : Word) : (s.goto a).ps = s.ps := rfl
@[simp] theorem State.goto_rs (s : State) (a : Word) : (s.goto a).rs = s.rs := rfl
@[simp] theorem State.goto_ea (s : State) (a : Word) : (s.goto a).ea = s.ea := rfl
@[simp] theorem State.goto_rr (s : State) (a : Word) : (s.goto a).rr = s.rr := rfl
@[simp] theorem State.goto_mem (s : State) (a : Word) : (s.goto a).mem = s.mem := rfl
@[simp] theorem State.goto_cfg (s : State) (a : Word) : (s.goto a).cfg = s.cfg := rfl
@[simp] theorem State.goto_env (s : State) (a : Word) : (s.goto a).env = s.env := rfl
@[simp] theorem State.goto_free (s : State) (a : Word) : (s.goto a).free = s.free := rfl

/-! ## next2 -/

@[simp] theorem State.next2_pc (s : State) : (s.next2).pc = after2 s.pc := rfl
@[simp] theorem State.next2_ppc (s : State) : (s.next2).ppc = s.ppc := rfl
@[simp] theorem State.next2_hp (s : State) : (s.next2).hp = s.hp := rfl
@[simp] theorem State.next2_flags (s : State) : (s.next2).flags = s.flags := rfl
@[simp] theorem State.next2_ps (s : State) : (s.next2).ps = s.ps := rfl
@[simp] theorem State.next2_rs (s : State) : (s.next2).rs = s.rs := rfl
@[simp] theorem State.next2_ea (s : State) : (s.next2).ea = s.ea := rfl
@[simp] theorem State.next2_rr (s : State) : (s.next2).rr = s.rr := rfl
@[simp] theorem State.next2_mem (s : State) : (s.next2).mem = s.mem := rfl
@[simp] theorem State.next2_cfg (s : State) : (s.next2).cfg = s.cfg := rfl
@[simp] theorem State.next2_env (s : State) : (s.next2).env = s.env := rfl
@[simp] theorem State.next2_free (s : State) : (s.next2).free = s.free := rfl

/-! ## next4 -/

@[simp] theorem State.next4_pc (s : State) : (s.next4).pc = after4 s.pc := rfl
@[simp] theorem State.next4_ppc (s : State) : (s.next4).ppc = s.ppc := rfl
@[simp] theorem State.next4_hp (s : State) : (s.next4).hp = s.hp := rfl
@[simp] theorem State.next4_flags (s : State) : (s.next4).flags = s.flags := rfl
@[simp] theorem State.next4_ps (s : State) : (s.next4).ps = s.ps := rfl
@[simp] theorem State.next4_rs (s : State) : (s.next4).rs = s.rs := rfl
@[simp] theorem State.next4_ea (s : State) : (s.next4).ea = s.ea := rfl
@[simp] theorem State.next4_rr (s : State) : (s.next4).rr = s.rr := rfl
@[simp] theorem State.next4_mem (s : State) : (s.next4).mem = s.mem := rfl
@[simp] theorem State.next4_cfg (s : State) : (s.next4).cfg = s.cfg := rfl
@[simp] theorem State.next4_env (s : State) : (s.next4).env = s.env := rfl
@[simp] theorem State.next4_free (s : State) : (s.next4).free = s.free := rfl

/-! ## setP0 -/

@[simp] theorem State.setP0_pc (s : State) (v : Word) : (s.setP0 v).pc = s.pc := rfl
@[simp] theorem State.setP0_ppc (s : State) (v : Word) : (s.setP0 v).ppc = s.ppc := rfl
@[simp] theorem State.setP0_hp (s : State) (v : Word) : (s.setP0 v).hp = s.hp := rfl
@[simp] theorem State.setP0_flags (s : State) (v : Word) : (s.setP0 v).flags = s.flags := rfl
@[simp] theorem State.setP0_ps (s : State) (v : Word) : (s.setP0 v).ps = { s.ps with regs := { s.ps.regs with e0 := v } } := rfl
@[simp] theorem State.setP0_rs (s : State) (v : Word) : (s.setP0 v).rs = s.rs := rfl
@[simp] theorem State.setP0_ea (s : State) (v : Word) : (s.setP0 v).ea = s.ea := rfl
@[simp] theorem State.setP0_rr (s : State) (v : Word) : (s.setP0 v).rr = s.rr := rfl
@[simp] theorem State.setP0_mem (s : State) (v : Word) : (s.setP0 v).mem = s.mem := rfl
@[simp] theorem State.setP0_cfg (s : State) (v : Word) : (s.setP0 v).cfg = s.cfg := rfl
@[simp] theorem State.setP0_env (s : State) (v : Word) : (s.setP0 v).env = s.env := rfl
@[simp] theorem State.setP0_free (s : State) (v : Word) : (s.setP0 v).free = s.free := rfl

/-! ## setP01 -/

@[simp] theorem State.setP01_pc (s : State) (v w : Word) : (s.setP01 v w).pc = s.pc := rfl
@[simp] theorem State.setP01_ppc (s : State) (v w : Word) : (s.setP01 v w).ppc = s.ppc := rfl
@[simp] theorem State.setP01_hp (s : State) (v w : Word) : (s.setP01 v w).hp = s.hp := rfl
@[simp] theorem State.setP01_flags (s : State) (v w : Word) : (s.setP01 v w).flags = s.flags := rfl
@[simp] theorem State.setP01_ps (s : State) (v w : Word) : (s.setP01 v w).ps = { s.ps with regs := { s.ps.regs with e0 := v, e1 := w } } := rfl
@[simp] theorem State.setP01_rs (s : State) (v w : Word) : (s.setP01 v w).rs = s.rs := rfl
@[simp] theorem State.setP01_ea (s : State) (v w : Word) : (s.setP01 v w).ea = s.ea := rfl
@[simp] theorem State.setP01_rr (s : State) (v w : Word) : (s.setP01 v w).rr = s.rr := rfl
@[simp] theorem State.setP01_mem (s : State) (v w : Word) : (s.setP01 v w).mem = s.mem := rfl
@[simp] theorem State.setP01_cfg (s : State) (v w : Word) : (s.setP01 v w).cfg = s.cfg := rfl
@[simp] theorem State.setP01_env (s : State) (v w : Word) : (s.setP01 v w).env = s.env := rfl
@[simp] theorem State.setP01_free (s : State) (v w : Word) : (s.setP01 v w).free = s.free := rfl

/-! ## setP012 -/

@[simp] theorem State.setP012_pc (s : State) (v w x : Word) : (s.setP012 v w x).pc = s.pc := rfl
@[simp] theorem State.setP012_ppc (s : State) (v w x : Word) : (s.setP012 v w x).ppc = s.ppc := rfl
@[simp] theorem State.setP012_hp (s : State) (v w x : Word) : (s.setP012 v w x).hp = s.hp := rfl
@[simp] theorem State.setP012_flags (s : State) (v w x : Word) : (s.setP012 v w x).flags = s.flags := rfl
@[simp] theorem State.setP012_ps (s : State) (v w x : Word) : (s.setP012 v w x).ps = { s.ps with regs := { s.ps.regs with e0 := v, e1 := w, e2 := x } } := rfl
@[simp] theorem State.setP012_rs (s : State) (v w x : Word) : (s.setP012 v w x).rs = s.rs := rfl
@[simp] theorem State.setP012_ea (s : State) (v w x : Word) : (s.setP012 v w x).ea = s.ea := rfl
@[simp] theorem State.setP012_rr (s : State) (v w x : Word) : (s.setP012 v w x).rr = s.rr := rfl
@[simp] theorem State.setP012_mem (s : State) (v w x : Word) : (s.setP012 v w x).mem = s.mem := rfl
@[simp] theorem State.setP012_cfg (s : State) (v w x : Word) : (s.setP012 v w x).cfg = s.cfg := rfl
@[simp] theorem State.setP012_env (s : State) (v w x : Word) : (s.setP012 v w x).env = s.env := rfl
@[simp] theorem State.setP012_free (s : State) (v w x : Word) : (s.setP012 v w x).free = s.free := rfl

/-! ## setR0 -/

@[simp] theorem State.setR0_pc (s : State) (v : Word) : (s.setR0 v).pc = s.pc := rfl
@[simp] theorem State.setR0_ppc (s : State) (v : Word) : (s.setR0 v).ppc = s.ppc := rfl
@[simp] theorem State.setR0_hp (s : State) (v : Word) : (s.setR0 v).hp = s.hp := rfl
@[simp] theorem State.setR0_flags (s : State) (v : Word) : (s.setR0 v).flags = s.flags := rfl
@[simp] theorem State.setR0_ps (s : State) (v : Word) : (s.setR0 v).ps = s.ps := rfl
@[simp] theorem State.setR0_rs (s : State) (v : Word) : (s.setR0 v).rs = { s.rs with regs := { s.rs.regs with e0 := v } } := rfl
@[simp] theorem State.setR0_ea (s : State) (v : Word) : (s.setR0 v).ea = s.ea := rfl
@[simp] theorem State.setR0_rr (s : State) (v : Word) : (s.setR0 v).rr = s.rr := rfl
@[simp] theorem State.setR0_mem (s : State) (v : Word) : (s.setR0 v).mem = s.mem := rfl
@[simp] theorem State.setR0_cfg (s : State) (v : Word) : (s.setR0 v).cfg = s.cfg := rfl
@[simp] theorem State.setR0_env (s : State) (v : Word) : (s.setR0 v).env = s.env := rfl
@[simp] theorem State.setR0_free (s : State) (v : Word) : (s.setR0 v).free = s.free := rfl

/-! ## setFlags -/

@[simp] theorem State.setFlags_pc (s : State) (f : Flags) : (s.setFlags f).pc = s.pc := rfl
@[simp] theorem State.setFlags_ppc (s : State) (f : Flags) : (s.setFlags f).ppc = s.ppc := rfl
@[simp] theorem State.setFlags_hp (s : State) (f : Flags) : (s.setFlags f).hp = s.hp := rfl
@[simp] theorem State.setFlags_flags (s : State) (f : Flags) : (s.setFlags f).flags = f := rfl
@[simp] theorem State.setFlags_ps (s : State) (f : Flags) : (s.setFlags f).ps = s.ps := rfl
@[simp] theorem State.setFlags_rs (s : State) (f : Flags) : (s.setFlags f).rs = s.rs := rfl
@[simp] theorem State.setFlags_ea (s : State) (f : Flags) : (s.setFlags f).ea = s.ea := rfl
@[simp] theorem State.setFlags_rr (s : State) (f : Flags) : (s.setFlags f).rr = s.rr := rfl
@[simp] theorem State.setFlags_mem (s : State) (f : Flags) : (s.setFlags f).mem = s.mem := rfl
@[simp] theorem State.setFlags_cfg (s : State) (f : Flags) : (s.setFlags f).cfg = s.cfg := rfl
@[simp] theorem State.setFlags_env (s : State) (f : Flags) : (s.setFlags f).env = s.env := rfl
@[simp] theorem State.setFlags_free (s : State) (f : Flags) : (s.setFlags f).free = s.free := rfl

/-! ## withResult -/

@[simp] theorem State.withResult_pc (s : State) (r : AluResult) : (s.withResult r).pc = s.pc := rfl
@[simp] theorem State.withResult_ppc (s : State) (r : AluResult) : (s.withResult r).ppc = s.ppc := rfl
@[simp] theorem State.withResult_hp (s : State) (r : AluResult) : (s.withResult r).hp = s.hp := rfl
@[simp] theorem State.withResult_flags (s : State) (r : AluResult) : (s.withResult r).flags = s.flags.withResult r := rfl
@[simp] theorem State.withResult_ps (s : State) (r : AluResult) : (s.withResult r).ps = s.ps := rfl
@[simp] theorem State.withResult_rs (s : State) (r : AluResult) : (s.withResult r).rs = s.rs := rfl
@[simp] theorem State.withResult_ea (s : State) (r : AluResult) : (s.withResult r).ea = s.ea := rfl
@[simp] theorem State.withResult_rr (s : State) (r : AluResult) : (s.withResult r).rr = s.rr := rfl
@[simp] theorem State.withResult_mem (s : State) (r : AluResult) : (s.withResult r).mem = s.mem := rfl
@[simp] theorem State.withResult_cfg (s : State) (r : AluResult) : (s.withResult r).cfg = s.cfg := rfl
@[simp] theorem State.withResult_env (s : State) (r : AluResult) : (s.withResult r).env = s.env := rfl
@[simp] theorem State.withResult_free (s : State) (r : AluResult) : (s.withResult r).free = s.free := rfl

/-! ## setZ -/

@[simp] theorem State.setZ_pc (s : State) (b : Bool) : (s.setZ b).pc = s.pc := rfl
@[simp] theorem State.setZ_ppc (s : State) (b : Bool) : (s.setZ b).ppc = s.ppc := rfl
@[simp] theorem State.setZ_hp (s : State) (b : Bool) : (s.setZ b).hp = s.hp := rfl
@[simp] theorem State.setZ_flags (s : State) (b : Bool) : (s.setZ b).flags = { s.flags with z := b } := rfl
@[simp] theorem State.setZ_ps (s : State) (b : Bool) : (s.setZ b).ps = s.ps := rfl
@[simp] theorem State.setZ_rs (s : State) (b : Bool) : (s.setZ b).rs = s.rs := rfl
@[simp] theorem State.setZ_ea (s : State) (b : Bool) : (s.setZ b).ea = s.ea := rfl
@[simp] theorem State.setZ_rr (s : State) (b : Bool) : (s.setZ b).rr = s.rr := rfl
@[simp] theorem State.setZ_mem (s : State) (b : Bool) : (s.setZ b).mem = s.mem := rfl
@[simp] theorem State.setZ_cfg (s : State) (b : Bool) : (s.setZ b).cfg = s.cfg := rfl
@[simp] theorem State.setZ_env (s : State) (b : Bool) : (s.setZ b).env = s.env := rfl
@[simp] theorem State.setZ_free (s : State) (b : Bool) : (s.setZ b).free = s.free := rfl

/-! ## setPpc -/

@[simp] theorem State.setPpc_pc (s : State) (v : Word) : (s.setPpc v).pc = s.pc := rfl
@[simp] theorem State.setPpc_ppc (s : State) (v : Word) : (s.setPpc v).ppc = v := rfl
@[simp] theorem State.setPpc_hp (s : State) (v : Word) : (s.setPpc v).hp = s.hp := rfl
@[simp] theorem State.setPpc_flags (s : State) (v : Word) : (s.setPpc v).flags = s.flags := rfl
@[simp] theorem State.setPpc_ps (s : State) (v : Word) : (s.setPpc v).ps = s.ps := rfl
@[simp] theorem State.setPpc_rs (s : State) (v : Word) : (s.setPpc v).rs = s.rs := rfl
@[simp] theorem State.setPpc_ea (s : State) (v : Word) : (s.setPpc v).ea = s.ea := rfl
@[simp] theorem State.setPpc_rr (s : State) (v : Word) : (s.setPpc v).rr = s.rr := rfl
@[simp] theorem State.setPpc_mem (s : State) (v : Word) : (s.setPpc v).mem = s.mem := rfl
@[simp] theorem State.setPpc_cfg (s : State) (v : Word) : (s.setPpc v).cfg = s.cfg := rfl
@[simp] theorem State.setPpc_env (s : State) (v : Word) : (s.setPpc v).env = s.env := rfl
@[simp] theorem State.setPpc_free (s : State) (v : Word) : (s.setPpc v).free = s.free := rfl

/-! ## setHp -/

@[simp] theorem State.setHp_pc (s : State) (v : Word) : (s.setHp v).pc = s.pc := rfl
@[simp] theorem State.setHp_ppc (s : State) (v : Word) : (s.setHp v).ppc = s.ppc := rfl
@[simp] theorem State.setHp_hp (s : State) (v : Word) : (s.setHp v).hp = v := rfl
@[simp] theorem State.setHp_flags (s : State) (v : Word) : (s.setHp v).flags = s.flags := rfl
@[simp] theorem State.setHp_ps (s : State) (v : Word) : (s.setHp v).ps = s.ps := rfl
@[simp] theorem State.setHp_rs (s : State) (v : Word) : (s.setHp v).rs = s.rs := rfl
@[simp] theorem State.setHp_ea (s : State) (v : Word) : (s.setHp v).ea = s.ea := rfl
@[simp] theorem State.setHp_rr (s : State) (v : Word) : (s.setHp v).rr = s.rr := rfl
@[simp] theorem State.setHp_mem (s : State) (v : Word) : (s.setHp v).mem = s.mem := rfl
@[simp] theorem State.setHp_cfg (s : State) (v : Word) : (s.setHp v).cfg = s.cfg := rfl
@[simp] theorem State.setHp_env (s : State) (v : Word) : (s.setHp v).env = s.env := rfl
@[simp] theorem State.setHp_free (s : State) (v : Word) : (s.setHp v).free = s.free := rfl

/-! ## setRr -/

@[simp] theorem State.setRr_pc (s : State) (v : Word) : (s.setRr v).pc = s.pc := rfl
@[simp] theorem State.setRr_ppc (s : State) (v : Word) : (s.setRr v).ppc = s.ppc := rfl
@[simp] theorem State.setRr_hp (s : State) (v : Word) : (s.setRr v).hp = s.hp := rfl
@[simp] theorem State.setRr_flags (s : State) (v : Word) : (s.setRr v).flags = s.flags := rfl
@[simp] theorem State.setRr_ps (s : State) (v : Word) : (s.setRr v).ps = s.ps := rfl
@[simp] theorem State.setRr_rs (s : State) (v : Word) : (s.setRr v).rs = s.rs := rfl
@[simp] theorem State.setRr_ea (s : State) (v : Word) : (s.setRr v).ea = s.ea := rfl
@[simp] theorem State.setRr_rr (s : State) (v : Word) : (s.setRr v).rr = v := rfl
@[simp] theorem State.setRr_mem (s : State) (v : Word) : (s.setRr v).mem = s.mem := rfl
@[simp] theorem State.setRr_cfg (s : State) (v : Word) : (s.setRr v).cfg = s.cfg := rfl
@[simp] theorem State.setRr_env (s : State) (v : Word) : (s.setRr v).env = s.env := rfl
@[simp] theorem State.setRr_free (s : State) (v : Word) : (s.setRr v).free = s.free := rfl

/-! ## logPort -/

@[simp] theorem State.logPort_pc (s : State) (c : PortCall) : (s.logPort c).pc = s.pc := rfl
@[simp] theorem State.logPort_ppc (s : State) (c : PortCall) : (s.logPort c).ppc = s.ppc := rfl
@[simp] theorem State.logPort_hp (s : State) (c : PortCall) : (s.logPort c).hp = s.hp := rfl
@[simp] theorem State.logPort_flags (s : State) (c : PortCall) : (s.logPort c).flags = s.flags := rfl
@[simp] theorem State.logPort_ps (s : State) (c : PortCall) : (s.logPort c).ps = s.ps := rfl
@[simp] theorem State.logPort_rs (s : State) (c : PortCall) : (s.logPort c).rs = s.rs := rfl
@[simp] theorem State.logPort_ea (s : State) (c : PortCall) : (s.logPort c).ea = s.ea := rfl
@[simp] theorem State.logPort_rr (s : State) (c : PortCall) : (s.logPort c).rr = s.rr := rfl
@[simp] theorem State.logPort_mem (s : State) (c : PortCall) : (s.logPort c).mem = s.mem := rfl
@[simp] theorem State.logPort_cfg (s : State) (c : PortCall) : (s.logPort c).cfg = s.cfg := rfl
@[simp] theorem State.logPort_env (s : State) (c : PortCall) : (s.logPort c).env = { s.env with portLog := c :: s.env.portLog } := rfl
@[simp] theorem State.logPort_free (s : State) (c : PortCall) : (s.logPort c).free = s.free := rfl

/-! ## setBoundary -/

@[simp] theorem State.setBoundary_pc (s : State) (l : List Boundary) : (s.setBoundary l).pc = s.pc := rfl
@[simp] theorem State.setBoundary_ppc (s : State) (l : List Boundary) : (s.setBoundary l).ppc = s.ppc := rfl
@[simp] theorem State.setBoundary_hp (s : State) (l : List Boundary) : (s.setBoundary l).hp = s.hp := rfl
@[simp] theorem State.setBoundary_flags (s : State) (l : List Boundary) : (s.setBoundary l).flags = s.flags := rfl
@[simp] theorem State.setBoundary_ps (s : State) (l : List Boundary) : (s.setBoundary l).ps = s.ps := rfl
@[simp] theorem State.setBoundary_rs (s : State) (l : List Boundary) : (s.setBoundary l).rs = s.rs := rfl
@[simp] theorem State.setBoundary_ea (s : State) (l : List Boundary) : (s.setBoundary l).ea = s.ea := rfl
@[simp] theorem State.setBoundary_rr (s : State) (l : List Boundary) : (s.setBoundary l).rr = s.rr := rfl
@[simp] theorem State.setBoundary_mem (s : State) (l : List Boundary) : (s.setBoundary l).mem = s.mem := rfl
@[simp] theorem State.setBoundary_cfg (s : State) (l : List Boundary) : (s.setBoundary l).cfg = s.cfg := rfl
@[simp] theorem State.setBoundary_env (s : State) (l : List Boundary) : (s.setBoundary l).env = { s.env with boundary := l } := rfl
@[simp] theorem State.setBoundary_free (s : State) (l : List Boundary) : (s.setBoundary l).free = s.free := rfl

/-! ## setStack -/

@[simp] theorem State.setStack_pc (s : State) (k : StackId) (st : Stack) : (s.setStack k st).pc = s.pc := by cases k <;> rfl
@[simp] theorem State.setStack_ppc (s : State) (k : StackId) (st : Stack) : (s.setStack k st).ppc = s.ppc := by cases k <;> rfl
@[simp] theorem State.setStack_hp (s : State) (k : StackId) (st : Stack) : (s.setStack k st).hp = s.hp := by cases k <;> rfl
@[simp] theorem State.setStack_flags (s : State) (k : StackId) (st : Stack) : (s.setStack k st).flags = s.flags := by cases k <;> rfl
@[simp] theorem State.setStack_ea (s : State) (k : StackId) (st : Stack) : (s.setStack k st).ea = s.ea := by cases k <;> rfl
@[simp] theorem State.setStack_rr (s : State) (k : StackId) (st : Stack) : (s.setStack k st).rr = s.rr := by cases k <;> rfl
@[simp] theorem State.setStack_mem (s : State) (k : StackId) (st : Stack) : (s.setStack k st).mem = s.mem := by cases k <;> rfl
@[simp] theorem State.setStack_cfg (s : State) (k : StackId) (st : Stack) : (s.setStack k st).cfg = s.cfg := by cases k <;> rfl
@[simp] theorem State.setStack_env (s : State) (k : StackId) (st : Stack) : (s.setStack k st).env = s.env := by cases k <;> rfl
@[simp] theorem State.setStack_free (s : State) (k : StackId) (st : Stack) : (s.setStack k st).free = s.free := by cases k <;> rfl

@[simp] theorem State.setStack_param_ps (s : State) (st : Stack) : (s.setStack .param st).ps = st := rfl
@[simp] theorem State.setStack_param_rs (s : State) (st : Stack) : (s.setStack .param st).rs = s.rs := rfl
@[simp] theorem State.setStack_ret_ps (s : State) (st : Stack) : (s.setStack .ret st).ps = s.ps := rfl
@[simp] theorem State.setStack_ret_rs (s : State) (st : Stack) : (s.setStack .ret st).rs = st := rfl
@[simp] theorem State.setStack_stack (s : State) (k : StackId) (st : Stack) : (s.setStack k st).stack k = st := by
  cases k <;> rfl
@[simp] theorem State.stack_param (s : State) : s.stack .param = s.ps := rfl
@[simp] theorem State.stack_ret (s : State) : s.stack .ret = s.rs := rfl

/-! ## edacReport -/

@[simp] theorem State.edacReport_pc (s : State) (a : Word) : (s.edacReport a).pc = s.pc := by
  unfold State.edacReport; split <;> rfl
@[simp] theorem State.edacReport_ppc (s : State) (a : Word) : (s.edacReport a).ppc = s.ppc := by
  unfold State.edacReport; split <;> rfl
@[simp] theorem State.edacReport_hp (s : State) (a : Word) : (s.edacReport a).hp = s.hp := by
  unfold State.edacReport; split <;> rfl
@[simp] theorem State.edacReport_ps (s : State) (a : Word) : (s.edacReport a).ps = s.ps := by
  unfold State.edacReport; split <;> rfl
@[simp] theorem State.edacReport_rs (s : State) (a : Word) : (s.edacReport a).rs = s.rs := by
  unfold State.edacReport; split <;> rfl
@[simp] theorem State.edacReport_rr (s : State) (a : Word) : (s.edacReport a).rr = s.rr := by
  unfold State.edacReport; split <;> rfl
@[simp] theorem State.edacReport_mem (s : State) (a : Word) : (s.edacReport a).mem = s.mem := by
  unfold State.edacReport; split <;> rfl
@[simp] theorem State.edacReport_cfg (s : State) (a : Word) : (s.edacReport a).cfg = s.cfg := by
  unfold State.edacReport; split <;> rfl
@[simp] theorem State.edacReport_free (s : State) (a : Word) : (s.edacReport a).free = s.free := by
  unfold State.edacReport; split <;> rfl

@[simp] theorem State.edacReport_boundary (s : State) (a : Word) :
    (s.edacReport a).env.boundary = s.env.boundary := by unfold State.edacReport; split <;> rfl
@[simp] theorem State.edacReport_portIn (s : State) (a : Word) : (s.edacReport a).env.portIn = s.env.portIn := by
  unfold State.edacReport; split <;> rfl
@[simp] theorem State.edacReport_portLog (s : State) (a : Word) :
    (s.edacReport a).env.portLog = s.env.portLog := by unfold State.edacReport; split <;> rfl
@[simp] theorem State.edacReport_stack (s : State) (a : Word) (k : StackId) :
    (s.edacReport a).stack k = s.stack k := by cases k <;> simp [State.stack]

/-- A report touches no flag but EE and EC (R93). -/
theorem State.edacReport_flags (s : State) (a : Word) :
    ∃ ee ec, (s.edacReport a).flags = { s.flags with ee := ee, ec := ec } := by
  unfold State.edacReport
  split
  · exact ⟨_, _, rfl⟩
  · dsimp only; split
    · exact ⟨_, _, rfl⟩
    · exact ⟨_, _, rfl⟩

/-- With no scripted answer left the oracle reports nothing (R8). -/
theorem State.edacReport_of_nil (s : State) (a : Word) (h : s.env.edac = []) : s.edacReport a = s := by
  simp [State.edacReport, h]

end Sys2Proof.Machine
end

