-- ==== Sys2Proof/Laws/Ops.lean ====
section
/-! SUPPORT. For each shared operation one lemma that says when it succeeds and one that says all it can do when it
does; the meanings are reasoned about with these and never unfold the operations. -/

namespace Sys2Proof.Machine

/-! ## The monad of an instruction -/

@[simp] theorem bind_ok {ε α β : Type} (a : α) (f : α → Except ε β) : (Except.ok a >>= f) = f a := rfl
@[simp] theorem bind_error {ε α β : Type} (e : ε) (f : α → Except ε β) : (Except.error e >>= f) = .error e := rfl
@[simp] theorem pure_eq_ok {ε α : Type} (a : α) : (pure a : Except ε α) = .ok a := rfl
@[simp] theorem orHalt_ok {α : Type} (a : α) : orHalt (.ok a) = .ok a := rfl
@[simp] theorem orHalt_error {α : Type} (h : Halt) : orHalt (.error h : Except Halt α) = .error (.halt h) := rfl
@[simp] theorem complete_ok (s t : State) : complete s (.ok t) = .next t := rfl
@[simp] theorem complete_halt (s : State) (h : Halt) : complete s (.error (.halt h)) = h.outcome := rfl
@[simp] theorem complete_trap (s : State) (t : Trap) : complete s (.error (.trap t)) = settle (enterTrap t s) := rfl
@[simp] theorem settle_ok (s : State) : settle (.ok s) = .next s := rfl
@[simp] theorem settle_error (h : Halt) : settle (.error h) = h.outcome := rfl
@[simp] theorem outcome_refused (r : Refusal) : (Halt.refused r).outcome = .refused r := rfl
@[simp] theorem outcome_fault (f : Fault) : (Halt.fault f).outcome = .fault f := rfl

theorem bind_eq_ok {ε α β : Type} {x : Except ε α} {f : α → Except ε β} {b : β} :
    (x >>= f) = .ok b ↔ ∃ a, x = .ok a ∧ f a = .ok b := by
  cases x with
  | error e => simp
  | ok a => simp

theorem orHalt_eq_ok {α : Type} {x : Except Halt α} {a : α} : orHalt x = .ok a ↔ x = .ok a := by
  cases x with
  | error e => simp
  | ok a => simp

theorem outcome_ne_next (h : Halt) (t : State) : h.outcome ≠ .next t := by
  cases h with
  | fault f => simp
  | refused r => simp

theorem settle_eq_next {x : Except Halt State} {t : State} : settle x = .next t ↔ x = .ok t := by
  cases x with
  | error e => simp [outcome_ne_next]
  | ok a => simp

/-- A completed instruction ended in its own effect or in one of the three traps. -/
theorem complete_cases {s t : State} {x : Run State} (h : complete s x = .next t) :
    x = .ok t ∨ ∃ e, x = .error (.trap e) ∧ enterTrap e s = .ok t := by
  rcases x with (e | e) | a
  · exact .inr ⟨e, rfl, settle_eq_next.1 h⟩
  · exact absurd h (outcome_ne_next e t)
  · left; simpa using h

/-! ## Memory accesses -/

theorem memRead8_of_hasByte {s : State} {a : Word} (h : s.hasByte a) :
    memRead8 a s = .ok (s.mem.read a.toNat, s.edacReport a) := by
  unfold memRead8; rw [if_neg (Nat.not_le.2 h)]

theorem memRead8_cases {s : State} {a : Word} {p : Byte × State} (h : memRead8 a s = .ok p) :
    s.hasByte a ∧ p = (s.mem.read a.toNat, s.edacReport a) := by
  unfold memRead8 at h; split at h
  · cases h
  · next hc => cases h; exact ⟨Nat.lt_of_not_le hc, rfl⟩

theorem memRead16_of_hasWord {s : State} {a : Word} (h : s.hasWord a) :
    memRead16 a s = .ok (s.mem.readWord a.toNat, s.edacReport a) := by
  unfold memRead16; rw [h.1, if_neg Bool.false_ne_true, if_neg (Nat.not_le.2 h.2)]

theorem memRead16_cases {s : State} {a : Word} {p : Word × State} (h : memRead16 a s = .ok p) :
    s.hasWord a ∧ p = (s.mem.readWord a.toNat, s.edacReport a) := by
  unfold memRead16 at h; split at h
  · cases h
  · next ho =>
    split at h
    · cases h
    · next hc => cases h; exact ⟨⟨Bool.eq_false_iff.2 ho, Nat.lt_of_not_le hc⟩, rfl⟩

theorem memRead16_odd {s : State} {a : Word} (h : isOdd a = true) :
    memRead16 a s = .error (.refused (.oddWordAccess a)) := by
  unfold memRead16; rw [h, if_pos rfl]

theorem memWrite8_of_hasByte {s : State} {a : Word} (v : Byte) (h : s.hasByte a) :
    memWrite8 a v s = .ok { s with mem := s.mem.write a.toNat v } := by
  unfold memWrite8; rw [if_neg (Nat.not_le.2 h)]

theorem memWrite8_cases {s s' : State} {a : Word} {v : Byte} (h : memWrite8 a v s = .ok s') :
    s.hasByte a ∧ s' = { s with mem := s.mem.write a.toNat v } := by
  unfold memWrite8 at h; split at h
  · cases h
  · next hc => cases h; exact ⟨Nat.lt_of_not_le hc, rfl⟩

theorem memWrite16_of_hasWord {s : State} {a : Word} (v : Word) (h : s.hasWord a) :
    memWrite16 a v s = .ok { s with mem := s.mem.writeWord a.toNat v } := by
  unfold memWrite16; rw [h.1, if_neg Bool.false_ne_true, if_neg (Nat.not_le.2 h.2)]

theorem memWrite16_cases {s s' : State} {a v : Word} (h : memWrite16 a v s = .ok s') :
    s.hasWord a ∧ s' = { s with mem := s.mem.writeWord a.toNat v } := by
  unfold memWrite16 at h; split at h
  · cases h
  · next ho =>
    split at h
    · cases h
    · next hc => cases h; exact ⟨⟨Bool.eq_false_iff.2 ho, Nat.lt_of_not_le hc⟩, rfl⟩

theorem memWrite16_odd {s : State} {a : Word} (v : Word) (h : isOdd a = true) :
    memWrite16 a v s = .error (.refused (.oddWordAccess a)) := by
  unfold memWrite16; rw [h, if_pos rfl]

theorem memRead8_absent {s : State} {a : Word} (h : s.cfg.memBytes ≤ a.toNat) :
    memRead8 a s = .error (.fault (.absentMemory a)) := by
  unfold memRead8; rw [if_pos h]

theorem memWrite8_absent {s : State} {a : Word} (v : Byte) (h : s.cfg.memBytes ≤ a.toNat) :
    memWrite8 a v s = .error (.fault (.absentMemory a)) := by
  unfold memWrite8; rw [if_pos h]

theorem memRead16_absent {s : State} {a : Word} (ho : isOdd a = false) (h : s.cfg.memBytes ≤ a.toNat + 1) :
    memRead16 a s = .error (.fault (.absentMemory a)) := by
  unfold memRead16; rw [ho, if_neg Bool.false_ne_true, if_pos h]

theorem memWrite16_absent {s : State} {a : Word} (v : Word) (ho : isOdd a = false)
    (h : s.cfg.memBytes ≤ a.toNat + 1) : memWrite16 a v s = .error (.fault (.absentMemory a)) := by
  unfold memWrite16; rw [ho, if_neg Bool.false_ne_true, if_pos h]

/-! ## Push and pop -/

@[simp] theorem State.withMem_stack (s : State) (m : Memory) (k : StackId) :
    ({ s with mem := m } : State).stack k = s.stack k := by cases k <;> rfl

/-- A push that can be made is R23 or R25. -/
theorem push_of_ready {k : StackId} (v : Word) {s : State} (h : s.pushReady k) : push k v s = .ok (s.afterPush k v) := by
  unfold push State.afterPush
  by_cases hc : 16 ≤ (s.stack k).ctr.toNat
  · simp [hc, memWrite16_of_hasWord _ (h hc)]
  · simp [hc]

/-- All a push can do. -/
theorem push_cases {k : StackId} {v : Word} {s s' : State} (h : push k v s = .ok s') :
    s.pushReady k ∧ s' = s.afterPush k v := by
  have hr : s.pushReady k := by
    intro hc
    unfold push at h
    simp only [hc, if_true, bind_eq_ok] at h
    obtain ⟨s1, h1, -⟩ := h
    exact (memWrite16_cases h1).1
  exact ⟨hr, by rw [push_of_ready v hr] at h; cases h; rfl⟩

/-- A pop that can be made is R24 or R26. -/
theorem pop_of_ready {k : StackId} {s : State} (h : s.popReady k) :
    pop k s = .ok ((s.stack k).regs.e0, s.afterPop k) := by
  unfold pop State.afterPop
  by_cases hc : 16 < (s.stack k).ctr.toNat
  · simp [h.1, hc, memRead16_of_hasWord (h.2 hc)]
  · simp [h.1, hc]

/-- All a pop can do. -/
theorem pop_cases {k : StackId} {s : State} {p : Word × State} (h : pop k s = .ok p) :
    s.popReady k ∧ p = ((s.stack k).regs.e0, s.afterPop k) := by
  have hr : s.popReady k := by
    unfold pop at h
    simp only at h
    split at h
    · cases h
    · next h0 =>
      refine ⟨h0, fun hc => ?_⟩
      simp only [hc, if_true, bind_eq_ok, orHalt_eq_ok] at h
      obtain ⟨q, h1, -⟩ := h
      exact (memRead16_cases h1).1
  exact ⟨hr, by rw [pop_of_ready hr] at h; cases h; rfl⟩

/-- A pop of an empty stack is the underflow trap and nothing else (R24, R26). -/
theorem pop_empty {k : StackId} {s : State} (h : (s.stack k).ctr = 0#16) : pop k s = .error (.trap k.underflow) := by
  simp [pop, h]

theorem needEntries_of_le {k : StackId} {n : Nat} {s : State} (h : n ≤ (s.stack k).ctr.toNat) :
    needEntries k n s = .ok () := by
  unfold needEntries; rw [if_neg (Nat.not_lt.2 h)]

theorem needEntries_of_lt {k : StackId} {n : Nat} {s : State} (h : (s.stack k).ctr.toNat < n) :
    needEntries k n s = .error (.trap k.underflow) := by
  unfold needEntries; rw [if_pos h]

theorem needEven_of_even {t : Word} (h : isOdd t = false) : needEven t = .ok () := by simp [needEven, h]
theorem needEven_of_odd {t : Word} (h : isOdd t = true) : needEven t = .error (.trap .pcOdd) := by
  simp [needEven, h]

theorem needEven_cases {t : Word} {u : Unit} (h : needEven t = .ok u) : isOdd t = false := by
  unfold needEven at h; split at h
  · cases h
  · next ho => exact Bool.eq_false_iff.2 ho

/-! ## What a push and a pop leave alone -/

@[simp] theorem afterPush_pc (s : State) (k : StackId) (v : Word) : (s.afterPush k v).pc = s.pc := by
  cases k <;> · simp only [State.afterPush]; split <;> rfl
@[simp] theorem afterPush_ppc (s : State) (k : StackId) (v : Word) : (s.afterPush k v).ppc = s.ppc := by
  cases k <;> · simp only [State.afterPush]; split <;> rfl
@[simp] theorem afterPush_hp (s : State) (k : StackId) (v : Word) : (s.afterPush k v).hp = s.hp := by
  cases k <;> · simp only [State.afterPush]; split <;> rfl
@[simp] theorem afterPush_flags (s : State) (k : StackId) (v : Word) : (s.afterPush k v).flags = s.flags := by
  cases k <;> · simp only [State.afterPush]; split <;> rfl
@[simp] theorem afterPush_ea (s : State) (k : StackId) (v : Word) : (s.afterPush k v).ea = s.ea := by
  cases k <;> · simp only [State.afterPush]; split <;> rfl
@[simp] theorem afterPush_rr (s : State) (k : StackId) (v : Word) : (s.afterPush k v).rr = s.rr := by
  cases k <;> · simp only [State.afterPush]; split <;> rfl
@[simp] theorem afterPush_cfg (s : State) (k : StackId) (v : Word) : (s.afterPush k v).cfg = s.cfg := by
  cases k <;> · simp only [State.afterPush]; split <;> rfl
@[simp] theorem afterPush_env (s : State) (k : StackId) (v : Word) : (s.afterPush k v).env = s.env := by
  cases k <;> · simp only [State.afterPush]; split <;> rfl
@[simp] theorem afterPush_free (s : State) (k : StackId) (v : Word) : (s.afterPush k v).free = s.free := by
  cases k <;> · simp only [State.afterPush]; split <;> rfl

@[simp] theorem afterPop_pc (s : State) (k : StackId) : (s.afterPop k).pc = s.pc := by
  cases k <;> · simp only [State.afterPop]; split <;> simp
@[simp] theorem afterPop_ppc (s : State) (k : StackId) : (s.afterPop k).ppc = s.ppc := by
  cases k <;> · simp only [State.afterPop]; split <;> simp
@[simp] theorem afterPop_hp (s : State) (k : StackId) : (s.afterPop k).hp = s.hp := by
  cases k <;> · simp only [State.afterPop]; split <;> simp
@[simp] theorem afterPop_rr (s : State) (k : StackId) : (s.afterPop k).rr = s.rr := by
  cases k <;> · simp only [State.afterPop]; split <;> simp
@[simp] theorem afterPop_mem (s : State) (k : StackId) : (s.afterPop k).mem = s.mem := by
  cases k <;> · simp only [State.afterPop]; split <;> simp
@[simp] theorem afterPop_cfg (s : State) (k : StackId) : (s.afterPop k).cfg = s.cfg := by
  cases k <;> · simp only [State.afterPop]; split <;> simp
@[simp] theorem afterPop_portLog (s : State) (k : StackId) : (s.afterPop k).env.portLog = s.env.portLog := by
  cases k <;> · simp only [State.afterPop]; split <;> simp
@[simp] theorem afterPop_portIn (s : State) (k : StackId) : (s.afterPop k).env.portIn = s.env.portIn := by
  cases k <;> · simp only [State.afterPop]; split <;> simp

@[simp] theorem afterPush_param_rs (s : State) (v : Word) : (s.afterPush .param v).rs = s.rs := by
  simp only [State.afterPush]; split <;> rfl
@[simp] theorem afterPush_ret_ps (s : State) (v : Word) : (s.afterPush .ret v).ps = s.ps := by
  simp only [State.afterPush]; split <;> rfl
@[simp] theorem afterPop_param_rs (s : State) : (s.afterPop .param).rs = s.rs := by
  simp only [State.afterPop]; split <;> simp
@[simp] theorem afterPop_ret_ps (s : State) : (s.afterPop .ret).ps = s.ps := by
  simp only [State.afterPop]; split <;> simp

/-- A pop touches no flag but EE and EC, through the report of its refill (R93). -/
theorem afterPop_flags (s : State) (k : StackId) :
    ∃ ee ec, (s.afterPop k).flags = { s.flags with ee := ee, ec := ec } := by
  cases k <;>
  · simp only [State.afterPop]
    split
    · simpa using State.edacReport_flags s _
    · exact ⟨s.flags.ee, s.flags.ec, by simp⟩

/-- A push keeps the canonical form of memory. -/
theorem afterPush_wf {s : State} (k : StackId) (v : Word) (h : s.mem.wf = true) (hc : s.cfg.legal)
    (hr : s.pushReady k) : (s.afterPush k v).mem.wf = true := by
  unfold State.afterPush
  by_cases h16 : 16 ≤ (s.stack k).ctr.toNat
  · simp only [h16, if_true, State.setStack_mem]
    exact Memory.wf_writeWord _ h (Nat.lt_of_lt_of_le (hr h16).2 hc.2)
  · simpa [h16] using h

/-- A push stores to no byte but the two it spills to (R23, R25). -/
theorem afterPush_read {s : State} (k : StackId) (v : Word) (a : Nat) (h : s.mem.wf = true)
    (ha : ¬ s.spillsTo k a) : (s.afterPush k v).mem.read a = s.mem.read a := by
  unfold State.afterPush
  by_cases h16 : 16 ≤ (s.stack k).ctr.toNat
  · simp only [h16, if_true, State.setStack_mem]
    refine Memory.read_writeWord_other _ h (s.stack k).ptr.isLt ?_ ?_
    · exact fun hc => ha ⟨h16, .inl hc⟩
    · exact fun hc => ha ⟨h16, .inr hc⟩
  · simp [h16]

/-- Whether a second pop can be made after a first (R345). -/
theorem popReady_of_twice {k : StackId} {s : State} (h : s.popTwiceReady k) :
    s.popReady k ∧ (s.afterPop k).popReady k := by
  obtain ⟨h2, h16, h17⟩ := h
  refine ⟨⟨fun h0 => by simp [h0] at h2, h16⟩, ?_⟩
  have hc : ((s.stack k).ctr - 1#16).toNat = (s.stack k).ctr.toNat - 1 := by
    have := (s.stack k).ctr.isLt
    rw [BitVec.toNat_sub]; simp; omega
  have hne : (s.stack k).ctr - 1#16 ≠ 0#16 := fun h0 => by simp [h0] at hc; omega
  by_cases hd : 16 < (s.stack k).ctr.toNat
  · have hs : ((s.afterPop k).stack k).ctr = (s.stack k).ctr - 1#16
        ∧ ((s.afterPop k).stack k).ptr = (s.stack k).ptr + 2#16 := by simp [State.afterPop, hd]
    refine ⟨by rw [hs.1]; exact hne, ?_⟩
    rw [hs.1, hs.2, hc, State.hasWord, afterPop_cfg, BitVec.add_assoc]
    exact fun h => h17 (by omega)
  · have hs : ((s.afterPop k).stack k).ctr = (s.stack k).ctr - 1#16 := by
      simp only [State.afterPop, hd, if_false]; cases k <;> rfl
    refine ⟨by rw [hs]; exact hne, ?_⟩
    rw [hs, hc]
    exact fun h => absurd h (by omega)

/-! ## Traps -/

theorem enterTrap_pcOdd (s : State) : enterTrap .pcOdd s = .ok (s.goto 0x000C#16) := rfl

theorem enterTrap_underflow {s : State} (k : StackId) (h : s.pushReady .ret) :
    enterTrap k.underflow s = .ok (s.afterTrap s.pc k.underflow.vector) := by
  cases k <;> simp [enterTrap, StackId.underflow, trapEntry, push_of_ready _ h, State.afterTrap, State.goto]

/-- All that taking a trap can do: the return stack, memory and PC change, nothing else (R340, R343). -/
theorem enterTrap_cases {e : Trap} {s t : State} (h : enterTrap e s = .ok t) :
    t = s.goto 0x000C#16 ∨ ∃ v, s.pushReady .ret ∧ t = (s.afterPush .ret s.pc).goto v ∧ isOdd v = false := by
  cases e with
  | pcOdd => cases h; exact .inl rfl
  | returnUnderflow =>
    simp only [enterTrap, trapEntry, bind_eq_ok] at h
    obtain ⟨s1, h1, h2⟩ := h
    obtain ⟨hr, rfl⟩ := push_cases h1
    cases h2; exact .inr ⟨_, hr, rfl, rfl⟩
  | paramUnderflow =>
    simp only [enterTrap, trapEntry, bind_eq_ok] at h
    obtain ⟨s1, h1, h2⟩ := h
    obtain ⟨hr, rfl⟩ := push_cases h1
    cases h2; exact .inr ⟨_, hr, rfl, rfl⟩

/-! ## A boundary at which nothing is presented -/

@[simp] theorem pastBoundary_pc (s : State) : s.pastBoundary.pc = s.pc := rfl
@[simp] theorem pastBoundary_ppc (s : State) : s.pastBoundary.ppc = s.ppc := rfl
@[simp] theorem pastBoundary_hp (s : State) : s.pastBoundary.hp = s.hp := rfl
@[simp] theorem pastBoundary_flags (s : State) : s.pastBoundary.flags = s.flags := rfl
@[simp] theorem pastBoundary_ps (s : State) : s.pastBoundary.ps = s.ps := rfl
@[simp] theorem pastBoundary_rs (s : State) : s.pastBoundary.rs = s.rs := rfl
@[simp] theorem pastBoundary_ea (s : State) : s.pastBoundary.ea = s.ea := rfl
@[simp] theorem pastBoundary_rr (s : State) : s.pastBoundary.rr = s.rr := rfl
@[simp] theorem pastBoundary_mem (s : State) : s.pastBoundary.mem = s.mem := rfl
@[simp] theorem pastBoundary_cfg (s : State) : s.pastBoundary.cfg = s.cfg := rfl
@[simp] theorem pastBoundary_free (s : State) : s.pastBoundary.free = s.free := rfl
@[simp] theorem pastBoundary_edac (s : State) : s.pastBoundary.env.edac = s.env.edac := rfl
@[simp] theorem pastBoundary_portIn (s : State) : s.pastBoundary.env.portIn = s.env.portIn := rfl
@[simp] theorem pastBoundary_portLog (s : State) : s.pastBoundary.env.portLog = s.env.portLog := rfl
@[simp] theorem pastBoundary_boundary (s : State) : s.pastBoundary.env.boundary = s.env.boundary.tail := rfl

theorem pastBoundary_of_nil {s : State} (h : s.env.boundary = []) : s.pastBoundary = s := by
  obtain ⟨pc, ppc, hp, flags, ps, rs, ea, rr, mem, cfg, ⟨boundary, edac, portIn, portLog⟩, free⟩ := s
  cases h; rfl

/-- With nothing presented a boundary only moves the script on (R347). -/
theorem boundary_of_quiet {s : State} (h : s.quiet) : boundary s = .ok (.proceed s.pastBoundary) := by
  rcases h with h | h
  · simp [boundary, h, pastBoundary_of_nil h]
  · cases hb : s.env.boundary with
    | nil => simp [hb] at h
    | cons b rest =>
      obtain rfl : b = ⟨false, false, false⟩ := by simpa [hb] using h
      simp [boundary, hb, State.pastBoundary, State.setBoundary]

/-! ## Ports -/

theorem portRead16_cases {p : Word} {s : State} {q : Word × State} (h : portRead16 p s = .ok q) :
    isOdd p = false ∧ q = (s.portAnswer.1, s.portAnswer.2.logPort (.read16 p s.portAnswer.1)) := by
  unfold portRead16 at h; split at h
  · cases h
  · next ho => cases h; exact ⟨Bool.eq_false_iff.2 ho, rfl⟩

theorem portWrite16_cases {p v : Word} {s s' : State} (h : portWrite16 p v s = .ok s') :
    isOdd p = false ∧ s' = s.logPort (.write16 p v) := by
  unfold portWrite16 at h; split at h
  · cases h
  · next ho => cases h; exact ⟨Bool.eq_false_iff.2 ho, rfl⟩

/-! ## What a port read and a register write leave alone -/

@[simp] theorem portAnswer_pc (s : State) : s.portAnswer.2.pc = s.pc := by
  unfold State.portAnswer; split <;> rfl
@[simp] theorem portAnswer_ppc (s : State) : s.portAnswer.2.ppc = s.ppc := by
  unfold State.portAnswer; split <;> rfl
@[simp] theorem portAnswer_hp (s : State) : s.portAnswer.2.hp = s.hp := by
  unfold State.portAnswer; split <;> rfl
@[simp] theorem portAnswer_rr (s : State) : s.portAnswer.2.rr = s.rr := by
  unfold State.portAnswer; split <;> rfl
@[simp] theorem portAnswer_ea (s : State) : s.portAnswer.2.ea = s.ea := by
  unfold State.portAnswer; split <;> rfl
@[simp] theorem portAnswer_mem (s : State) : s.portAnswer.2.mem = s.mem := by
  unfold State.portAnswer; split <;> rfl
@[simp] theorem portAnswer_cfg (s : State) : s.portAnswer.2.cfg = s.cfg := by
  unfold State.portAnswer; split <;> rfl
@[simp] theorem portAnswer_flags (s : State) : s.portAnswer.2.flags = s.flags := by
  unfold State.portAnswer; split <;> rfl
@[simp] theorem portAnswer_ps (s : State) : s.portAnswer.2.ps = s.ps := by
  unfold State.portAnswer; split <;> rfl
@[simp] theorem portAnswer_rs (s : State) : s.portAnswer.2.rs = s.rs := by
  unfold State.portAnswer; split <;> rfl
@[simp] theorem portAnswer_portLog (s : State) : s.portAnswer.2.env.portLog = s.env.portLog := by
  unfold State.portAnswer; split <;> rfl
@[simp] theorem portAnswer_edac (s : State) : s.portAnswer.2.env.edac = s.env.edac := by
  unfold State.portAnswer; split <;> rfl
@[simp] theorem portAnswer_boundary (s : State) : s.portAnswer.2.env.boundary = s.env.boundary := by
  unfold State.portAnswer; split <;> rfl

@[simp] theorem writeReg_env (s : State) (r : Reg) (v : Word) : (s.writeReg r v).env = s.env := by cases r <;> rfl
@[simp] theorem writeReg_cfg (s : State) (r : Reg) (v : Word) : (s.writeReg r v).cfg = s.cfg := by cases r <;> rfl
@[simp] theorem writeReg_mem (s : State) (r : Reg) (v : Word) : (s.writeReg r v).mem = s.mem := by cases r <;> rfl
@[simp] theorem writeReg_free (s : State) (r : Reg) (v : Word) : (s.writeReg r v).free = s.free := by cases r <;> rfl
@[simp] theorem writeReg_pc (s : State) (v : Word) : (s.writeReg .pc v).pc = v := rfl

/-- FLAGS changes by a write to it only. -/
theorem writeReg_flags (s : State) {r : Reg} (v : Word) (h : r ≠ .flags) : (s.writeReg r v).flags = s.flags := by
  cases r <;> first | rfl | exact absurd rfl h

/-! ## Even addresses -/

theorem isOdd_add_two (w : Word) : isOdd (w + 2#16) = isOdd w := by
  simp only [isOdd, BitVec.getLsbD_add (by decide : 0 < 16)]; simp [BitVec.carry_zero]

theorem isOdd_add_four (w : Word) : isOdd (w + 4#16) = isOdd w := by
  simp only [isOdd, BitVec.getLsbD_add (by decide : 0 < 16)]; simp [BitVec.carry_zero]

@[simp] theorem isOdd_after2 (w : Word) : isOdd (after2 w) = isOdd w := isOdd_add_two w
@[simp] theorem isOdd_after4 (w : Word) : isOdd (after4 w) = isOdd w := isOdd_add_four w

/-- What EDAC reports leave alone of FLAGS (R93). -/
theorem edacReport_flags_but_edac (s : State) (a : Word) :
    { (s.edacReport a).flags with ee := s.flags.ee, ec := s.flags.ec } = s.flags := by
  obtain ⟨ee, ec, h⟩ := State.edacReport_flags s a; rw [h]

end Sys2Proof.Machine
end

