-- ==== Sys2Proof/Laws/PerInstr.lean ====
section
/-! SUPPORT. Statements made for every instruction, one lemma per constructor. `EncodedSize`: the encoding of an
instruction is 4 bytes long exactly for format L (R106). -/

namespace Sys2Proof.Laws.EncodedSize

/-- The format L instructions (R101, R106). -/
def formatL : Instr → Bool
  | .cNLoad _ _ | .cJsr _ _ | .cJmp _ _ | .cLoad _ _ | .cStore _ _ | .cLoadB _ _ => true
  | .cStoreB _ _ | .cIn _ _ | .cOut _ _ | .cInB _ _ | .cOutB _ _ => true
  | _ => false

/-- The number of bytes of the encoding. -/
def Statement (i : Instr) : Prop := (encode i).length = if formatL i then 4 else 2

theorem sJmp (abc : BitVec 12) : Statement (.sJmp abc) := rfl
theorem sJsr (abc : BitVec 12) : Statement (.sJsr abc) := rfl
theorem sLoad (abc : BitVec 12) : Statement (.sLoad abc) := rfl
theorem sStore (abc : BitVec 12) : Statement (.sStore abc) := rfl
theorem sBr (efg : BitVec 12) : Statement (.sBr efg) := rfl
theorem sBsr (efg : BitVec 12) : Statement (.sBsr efg) := rfl
theorem cNLoad (nnnn : Word) (cond : Cond) : Statement (.cNLoad nnnn cond) := rfl
theorem uNLoad (n : Byte) : Statement (.uNLoad n) := rfl
theorem sNLoad (n : Byte) : Statement (.sNLoad n) := rfl
theorem cJsr (nnnn : Word) (cond : Cond) : Statement (.cJsr nnnn cond) := rfl
theorem cJmp (nnnn : Word) (cond : Cond) : Statement (.cJmp nnnn cond) := rfl
theorem cLoad (nnnn : Word) (cond : Cond) : Statement (.cLoad nnnn cond) := rfl
theorem cStore (nnnn : Word) (cond : Cond) : Statement (.cStore nnnn cond) := rfl
theorem cLoadB (nnnn : Word) (cond : Cond) : Statement (.cLoadB nnnn cond) := rfl
theorem cStoreB (nnnn : Word) (cond : Cond) : Statement (.cStoreB nnnn cond) := rfl
theorem cpJsr (cond : Cond) : Statement (.cpJsr cond) := rfl
theorem cpJmp (cond : Cond) : Statement (.cpJmp cond) := rfl
theorem cpLoad (cond : Cond) : Statement (.cpLoad cond) := rfl
theorem cpStore (cond : Cond) : Statement (.cpStore cond) := rfl
theorem cpLoadB (cond : Cond) : Statement (.cpLoadB cond) := rfl
theorem cpStoreB (cond : Cond) : Statement (.cpStoreB cond) := rfl
theorem cRts (cond : Cond) : Statement (.cRts cond) := rfl
theorem cpBsr (cond : Cond) : Statement (.cpBsr cond) := rfl
theorem cBr (ee : Byte) (cond : Cond) : Statement (.cBr ee cond) := rfl
theorem addU (n : Byte) : Statement (.addU n) := rfl
theorem adcU (n : Byte) : Statement (.adcU n) := rfl
theorem subU (n : Byte) : Statement (.subU n) := rfl
theorem sbcU (n : Byte) : Statement (.sbcU n) := rfl
theorem rsubU (n : Byte) : Statement (.rsubU n) := rfl
theorem rsbcU (n : Byte) : Statement (.rsbcU n) := rfl
theorem andU (n : Byte) : Statement (.andU n) := rfl
theorem orU (n : Byte) : Statement (.orU n) := rfl
theorem eorU (n : Byte) : Statement (.eorU n) := rfl
theorem rcmpU (n : Byte) : Statement (.rcmpU n) := rfl
theorem cmpU (n : Byte) : Statement (.cmpU n) := rfl
theorem maskU (n : Byte) : Statement (.maskU n) := rfl
theorem tstU (n : Byte) : Statement (.tstU n) := rfl
theorem addS (n : Byte) : Statement (.addS n) := rfl
theorem adcS (n : Byte) : Statement (.adcS n) := rfl
theorem subS (n : Byte) : Statement (.subS n) := rfl
theorem sbcS (n : Byte) : Statement (.sbcS n) := rfl
theorem rsubS (n : Byte) : Statement (.rsubS n) := rfl
theorem rsbcS (n : Byte) : Statement (.rsbcS n) := rfl
theorem andS (n : Byte) : Statement (.andS n) := rfl
theorem orS (n : Byte) : Statement (.orS n) := rfl
theorem eorS (n : Byte) : Statement (.eorS n) := rfl
theorem rcmpS (n : Byte) : Statement (.rcmpS n) := rfl
theorem cmpS (n : Byte) : Statement (.cmpS n) := rfl
theorem tstS (n : Byte) : Statement (.tstS n) := rfl
theorem addP : Statement .addP := rfl
theorem adcP : Statement .adcP := rfl
theorem rsubP : Statement .rsubP := rfl
theorem rsbcP : Statement .rsbcP := rfl
theorem subP : Statement .subP := rfl
theorem sbcP : Statement .sbcP := rfl
theorem andP : Statement .andP := rfl
theorem orP : Statement .orP := rfl
theorem eorP : Statement .eorP := rfl
theorem nop : Statement .nop := rfl
theorem cmpP : Statement .cmpP := rfl
theorem rcmpP : Statement .rcmpP := rfl
theorem maskP : Statement .maskP := rfl
theorem cpl : Statement .cpl := rfl
theorem tstP : Statement .tstP := rfl
theorem neg : Statement .neg := rfl
theorem dupl : Statement .dupl := rfl
theorem del : Statement .del := rfl
theorem swap : Statement .swap := rfl
theorem sot : Statement .sot := rfl
theorem rtu : Statement .rtu := rfl
theorem rtd : Statement .rtd := rfl
theorem ptor : Statement .ptor := rfl
theorem rtop : Statement .rtop := rfl
theorem idx : Statement .idx := rfl
theorem xrp : Statement .xrp := rfl
theorem lsl : Statement .lsl := rfl
theorem lsr : Statement .lsr := rfl
theorem rol : Statement .rol := rfl
theorem ror : Statement .ror := rfl
theorem asr : Statement .asr := rfl
theorem pushPs (qq : Reg) : Statement (.pushPs qq) := rfl
theorem popPs (qq : Reg) : Statement (.popPs qq) := rfl
theorem pushRs (qq : Reg) : Statement (.pushRs qq) := rfl
theorem popRs (qq : Reg) : Statement (.popRs qq) := rfl
theorem set (m : FlagSel) : Statement (.set m) := rfl
theorem clear (m : FlagSel) : Statement (.clear m) := rfl
theorem cIn (nnnn : Word) (cond : Cond) : Statement (.cIn nnnn cond) := rfl
theorem cOut (nnnn : Word) (cond : Cond) : Statement (.cOut nnnn cond) := rfl
theorem cInB (nnnn : Word) (cond : Cond) : Statement (.cInB nnnn cond) := rfl
theorem cOutB (nnnn : Word) (cond : Cond) : Statement (.cOutB nnnn cond) := rfl
theorem cpIn (cond : Cond) : Statement (.cpIn cond) := rfl
theorem cpOut (cond : Cond) : Statement (.cpOut cond) := rfl
theorem cpInB (cond : Cond) : Statement (.cpInB cond) := rfl
theorem cpOutB (cond : Cond) : Statement (.cpOutB cond) := rfl
theorem emulate (cond : Cond) : Statement (.emulate cond) := rfl
theorem execute (cond : Cond) : Statement (.execute cond) := rfl
theorem prepare (cond : Cond) : Statement (.prepare cond) := rfl
theorem refresh (cond : Cond) : Statement (.refresh cond) := rfl
theorem dfx : Statement .dfx := rfl
theorem twoBlit : Statement .twoBlit := rfl
theorem jppc : Statement .jppc := rfl
theorem xb : Statement .xb := rfl
theorem flag (cond : Cond) : Statement (.flag cond) := rfl

end Sys2Proof.Laws.EncodedSize
end

