-- ==== Sys2Proof/Laws/Sat.lean ====
section
/-! SUPPORT. A small calculus for "whatever this computation answers satisfies Q": one rule per shared operation, so that
a property of every instruction is proved by applying the rules and closing the leaves. -/

namespace Sys2Proof.Machine

/-- Every answer of `x` satisfies `Q`. -/
def Sat {ε α : Type} (x : Except ε α) (Q : α → Prop) : Prop := ∀ a, x = .ok a → Q a

theorem sat_ok {ε α : Type} {a : α} {Q : α → Prop} (h : Q a) : Sat (.ok a : Except ε α) Q := fun b hb => by cases hb; exact h

theorem sat_error {ε α : Type} {e : ε} {Q : α → Prop} : Sat (.error e : Except ε α) Q := fun b hb => by cases hb

theorem sat_bind {ε α β : Type} {x : Except ε α} {f : α → Except ε β} {Q : β → Prop}
    (h : Sat x fun a => Sat (f a) Q) : Sat (x >>= f) Q := fun b hb => by
  obtain ⟨a, ha, hf⟩ := bind_eq_ok.1 hb
  exact h a ha b hf

theorem sat_ite {ε α : Type} {c : Prop} [Decidable c] {x y : Except ε α} {Q : α → Prop} (hx : c → Sat x Q)
    (hy : ¬ c → Sat y Q) : Sat (if c then x else y) Q := by
  split
  · next h => exact hx h
  · next h => exact hy h

theorem sat_orHalt {α : Type} {x : Except Halt α} {Q : α → Prop} (h : Sat x Q) : Sat (orHalt x) Q :=
  fun a ha => h a (orHalt_eq_ok.1 ha)

theorem sat_push {k : StackId} {v : Word} {s : State} {Q : State → Prop} (h : s.pushReady k → Q (s.afterPush k v)) :
    Sat (push k v s) Q := fun t ht => by obtain ⟨hr, rfl⟩ := push_cases ht; exact h hr

theorem sat_pop {k : StackId} {s : State} {Q : Word × State → Prop}
    (h : s.popReady k → Q ((s.stack k).regs.e0, s.afterPop k)) : Sat (pop k s) Q :=
  fun t ht => by obtain ⟨hr, rfl⟩ := pop_cases ht; exact h hr

theorem sat_memRead8 {a : Word} {s : State} {Q : Byte × State → Prop}
    (h : s.hasByte a → Q (s.mem.read a.toNat, s.edacReport a)) : Sat (memRead8 a s) Q :=
  fun t ht => by obtain ⟨hr, rfl⟩ := memRead8_cases ht; exact h hr

theorem sat_memRead16 {a : Word} {s : State} {Q : Word × State → Prop}
    (h : s.hasWord a → Q (s.mem.readWord a.toNat, s.edacReport a)) : Sat (memRead16 a s) Q :=
  fun t ht => by obtain ⟨hr, rfl⟩ := memRead16_cases ht; exact h hr

theorem sat_memWrite8 {a : Word} {v : Byte} {s : State} {Q : State → Prop}
    (h : s.hasByte a → Q { s with mem := s.mem.write a.toNat v }) : Sat (memWrite8 a v s) Q :=
  fun t ht => by obtain ⟨hr, rfl⟩ := memWrite8_cases ht; exact h hr

theorem sat_memWrite16 {a v : Word} {s : State} {Q : State → Prop}
    (h : s.hasWord a → Q { s with mem := s.mem.writeWord a.toNat v }) : Sat (memWrite16 a v s) Q :=
  fun t ht => by obtain ⟨hr, rfl⟩ := memWrite16_cases ht; exact h hr

theorem sat_needEntries {k : StackId} {n : Nat} {s : State} {Q : Unit → Prop} (h : Q ()) : Sat (needEntries k n s) Q :=
  fun _ _ => h

theorem sat_needEven {t : Word} {Q : Unit → Prop} (h : isOdd t = false → Q ()) : Sat (needEven t) Q :=
  fun _ hu => h (needEven_cases hu)

theorem sat_portRead16 {p : Word} {s : State} {Q : Word × State → Prop}
    (h : Q (s.portAnswer.1, s.portAnswer.2.logPort (.read16 p s.portAnswer.1))) : Sat (portRead16 p s) Q :=
  fun t ht => by obtain ⟨-, rfl⟩ := portRead16_cases ht; exact h

theorem sat_portWrite16 {p v : Word} {s : State} {Q : State → Prop} (h : Q (s.logPort (.write16 p v))) :
    Sat (portWrite16 p v s) Q := fun t ht => by obtain ⟨-, rfl⟩ := portWrite16_cases ht; exact h

/-- A property of every next state of an instruction: of its own effect, and of its trap entries. -/
theorem next_of_sat {s t : State} {x : Run State} {Q : State → Prop} (h : complete s x = .next t) (hx : Sat x Q)
    (hodd : Q (s.goto 0x000C#16))
    (hpush : ∀ v, s.pushReady .ret → isOdd v = false → Q ((s.afterPush .ret s.pc).goto v)) : Q t := by
  rcases complete_cases h with h | ⟨e, -, he⟩
  · exact hx t h
  · rcases enterTrap_cases he with rfl | ⟨v, hr, rfl, hv⟩
    · exact hodd
    · exact hpush v hr hv

end Sys2Proof.Machine
end

