-- ==== Sys2Proof/WellFormed.lean ====
section
/-! DEFINITION. Which instructions a program may use. The operand types of `Instr` already leave out every
undefined register selector and flag selector (R114); what is left to check is R207: SET may not name I or EE. -/

namespace Sys2Proof

/-- An instruction to which the spec gives an effect. Only `FLGI SET` and `FLGEE SET` have none: "Setting of bits
marked with an asterisk may produce unpredictable results" (R207, R394). -/
def Instr.wellFormed : Instr → Bool
  | .set m => decide (m ≠ .i) && decide (m ≠ .ee)
  | .sJmp _ | .sJsr _ | .sLoad _ | .sStore _ | .sBr _ | .sBsr _ => true
  | .cNLoad _ _ | .uNLoad _ | .sNLoad _ => true
  | .cJsr _ _ | .cJmp _ _ | .cLoad _ _ | .cStore _ _ | .cLoadB _ _ | .cStoreB _ _ => true
  | .cpJsr _ | .cpJmp _ | .cpLoad _ | .cpStore _ | .cpLoadB _ | .cpStoreB _ | .cRts _ | .cpBsr _ | .cBr _ _ => true
  | .addU _ | .adcU _ | .subU _ | .sbcU _ | .rsubU _ | .rsbcU _ | .andU _ | .orU _ | .eorU _ => true
  | .rcmpU _ | .cmpU _ | .maskU _ | .tstU _ => true
  | .addS _ | .adcS _ | .subS _ | .sbcS _ | .rsubS _ | .rsbcS _ | .andS _ | .orS _ | .eorS _ => true
  | .rcmpS _ | .cmpS _ | .tstS _ => true
  | .addP | .adcP | .rsubP | .rsbcP | .subP | .sbcP | .andP | .orP | .eorP => true
  | .nop | .cmpP | .rcmpP | .maskP | .cpl | .tstP | .neg => true
  | .dupl | .del | .swap | .sot | .rtu | .rtd | .ptor | .rtop | .idx | .xrp => true
  | .lsl | .lsr | .rol | .ror | .asr => true
  | .pushPs _ | .popPs _ | .pushRs _ | .popRs _ | .clear _ => true
  | .cIn _ _ | .cOut _ _ | .cInB _ _ | .cOutB _ _ | .cpIn _ | .cpOut _ | .cpInB _ | .cpOutB _ => true
  | .emulate _ | .execute _ | .prepare _ | .refresh _ => true
  | .dfx | .twoBlit | .jppc | .xb | .flag _ => true

end Sys2Proof
end

