-- ==== Sys2Proof/Tests/Slice0.lean ====
section
/-! SUPPORT. Tests: the checks of `WellFormed`; every instruction's word written out from the spec's encoding; one step
on small states, with results from `95_test_vectors.md` (the vector's name stands before each test); and for every
statement with hypotheses states that meet them, clause by clause, at the ends of their ranges. -/

namespace Sys2Proof.Tests

open Sys2Proof.Machine

/-! ## WellFormed (R207) -/

theorem test_wellFormed_refuses_set_i : Instr.wellFormed (.set .i) = false := by decide
theorem test_wellFormed_refuses_set_ee : Instr.wellFormed (.set .ee) = false := by decide
theorem test_wellFormed_takes_the_others :
    Instr.wellFormed (.set .ie) = true ∧ Instr.wellFormed (.clear .i) = true ∧ Instr.wellFormed (.clear .ee) = true := by
  decide

/-! ## Words written out bit by bit from the encodings of `30_encoding.md` (R101 to R115)

The first byte is bits 15 to 8; the operand word of a 4-byte instruction is bits 31 to 16. -/

/-- format S (R102): opcode nibble, then the 12-bit operand. -/
theorem test_decode_short : ∀ p ∈ [
    (0x0650, Instr.sJmp 0x650), (0x1300, .sJsr 0x300), (0x2402, .sLoad 0x402), (0x3402, .sStore 0x402),
    (0x4006, .sBr 0x006), (0x5FFC, .sBsr 0xFFC)],
    decodeTableWord 16 p.1 = some p.2 := by decide

/-- format B (R107): #9, condition, displacement. -/
theorem test_decode_branch : ∀ p ∈ [
    (0x9004, Instr.cBr 0x04 .eq), (0x9F10, .cBr 0x10 .nef), (0x91FC, .cBr 0xFC .ne)],
    decodeTableWord 16 p.1 = some p.2 := by decide

/-- format I (R105). -/
theorem test_decode_immediate_loads : ∀ p ∈ [
    (0x7003, Instr.uNLoad 0x03), (0x71FF, .sNLoad 0xFF)],
    decodeTableWord 16 p.1 = some p.2 := by decide

/-- format I, uN (R105). -/
theorem test_decode_unsigned_immediate : ∀ p ∈ [
    (0xA002, Instr.addU 0x02), (0xA100, .adcU 0x00), (0xA201, .subU 0x01), (0xA300, .sbcU 0x00),
    (0xA405, .rsubU 0x05), (0xA510, .rsbcU 0x10), (0xA60F, .andU 0x0F), (0xA780, .orU 0x80),
    (0xA85D, .eorU 0x5D), (0xAA05, .rcmpU 0x05), (0xAB05, .cmpU 0x05), (0xACF3, .maskU 0xF3),
    (0xAE80, .tstU 0x80)],
    decodeTableWord 16 p.1 = some p.2 := by decide

/-- format I, sN (R105). -/
theorem test_decode_signed_immediate : ∀ p ∈ [
    (0xB0FF, Instr.addS 0xFF), (0xB100, .adcS 0x00), (0xB280, .subS 0x80), (0xB301, .sbcS 0x01),
    (0xB402, .rsubS 0x02), (0xB503, .rsbcS 0x03), (0xB6FF, .andS 0xFF), (0xB780, .orS 0x80),
    (0xB80F, .eorS 0x0F), (0xBA05, .rcmpS 0x05), (0xBB00, .cmpS 0x00), (0xBE01, .tstS 0x01)],
    decodeTableWord 16 p.1 = some p.2 := by decide

/-- format G, #C0 (R111). -/
theorem test_decode_alu_group : ∀ p ∈ [
    (0xC000, Instr.addP), (0xC010, .adcP), (0xC020, .rsubP), (0xC030, .rsbcP), (0xC040, .subP),
    (0xC050, .sbcP), (0xC060, .andP), (0xC070, .orP), (0xC080, .eorP), (0xC090, .nop), (0xC0A0, .cmpP),
    (0xC0B0, .rcmpP), (0xC0C0, .maskP), (0xC0D0, .cpl), (0xC0E0, .tstP), (0xC0F0, .neg)],
    decodeTableWord 16 p.1 = some p.2 := by decide

/-- format G, #C1 (R111). -/
theorem test_decode_stack_group : ∀ p ∈ [
    (0xC100, Instr.dupl), (0xC110, .del), (0xC120, .swap), (0xC130, .sot), (0xC140, .rtu), (0xC150, .rtd),
    (0xC160, .ptor), (0xC170, .rtop), (0xC180, .idx), (0xC190, .xrp)],
    decodeTableWord 16 p.1 = some p.2 := by decide

/-- format G, #C2 (R111). -/
theorem test_decode_shift_group : ∀ p ∈ [
    (0xC200, Instr.lsl), (0xC210, .lsr), (0xC220, .rol), (0xC230, .ror), (0xC290, .asr)],
    decodeTableWord 16 p.1 = some p.2 := by decide

/-- format Q (R112): selector, then a zero nibble. -/
theorem test_decode_registers_and_flags : ∀ p ∈ [
    (0xD050, Instr.pushPs .psc), (0xD160, .popPs .rsp), (0xD220, .pushRs .hp), (0xD310, .popRs .ppc),
    (0xD000, .pushPs .pc), (0xD130, .popPs .flags), (0xD240, .pushRs .psp), (0xD370, .popRs .rsc),
    (0xD080, .pushPs .ea), (0xD190, .popPs .rr), (0xD460, .set .ie), (0xD540, .clear .e), (0xD570, .clear .ee)],
    decodeTableWord 16 p.1 = some p.2 := by decide

/-- format C (R108): a zero nibble, then the condition. -/
theorem test_decode_conditional : ∀ p ∈ [
    (0x8804, Instr.cpJsr .mi), (0x8901, .cpJmp .ne), (0x8A0E, .cpLoad .al), (0x8B00, .cpStore .eq),
    (0x8C02, .cpLoadB .cs), (0x8D03, .cpStoreB .cc), (0x8E0E, .cRts .al), (0x8F00, .cpBsr .eq),
    (0xEA0E, .cpIn .al), (0xEB0E, .cpOut .al), (0xEC05, .cpInB .pl), (0xED06, .cpOutB .vs)],
    decodeTableWord 16 p.1 = some p.2 := by decide

/-- formats C and Z (R108, R115). -/
theorem test_decode_system : ∀ p ∈ [
    (0xF00F, Instr.emulate .nef), (0xF100, .execute .eq), (0xF20A, .prepare .ge), (0xF60E, .refresh .al),
    (0xF800, .dfx), (0xFB00, .twoBlit), (0xFC00, .jppc), (0xFD00, .xb), (0xFF0D, .flag .le)],
    decodeTableWord 16 p.1 = some p.2 := by decide

/-- format L (R109): low byte of the operand first. -/
theorem test_decode_long : ∀ p ∈ [
    (0xFFFE600E, Instr.cNLoad 0xFFFE .al), (0x0700800E, .cJsr 0x0700 .al), (0x12348100, .cJmp 0x1234 .eq),
    (0x12348201, .cLoad 0x1234 .ne), (0x0400830E, .cStore 0x0400 .al), (0x12358407, .cLoadB 0x1235 .vc),
    (0x04018508, .cStoreB 0x0401 .hs), (0x0002E209, .cIn 0x0002 .lo), (0x0004E30B, .cOut 0x0004 .lt),
    (0x0001E40C, .cInB 0x0001 .gt), (0x0000E50E, .cOutB 0x0000 .al)],
    decodeTableWord 32 p.1 = some p.2 := by decide

/-- The bytes in address order, `#60 #0E #FE #FF` (X3 of `95_test_vectors.md`), and a list that ends too soon. -/
theorem test_decode_bytes : decode [0x60, 0x0E, 0xFE, 0xFF] = .ok (.cNLoad 0xFFFE .al, [])
    ∧ decode [0x60, 0x0E, 0xFE] = .error .truncated := by decide

/-- X2, X3, X5, X6, X7, X13 of `95_test_vectors.md`: the bytes of statements of the IPS-F1G listing. -/
theorem test_assemble :
    assemble (.sJmp 0x600) = [0x06, 0x00] ∧ assemble (.cNLoad 0xFFFE .al) = [0x60, 0x0E, 0xFE, 0xFF]
      ∧ assemble (.popPs .rsp) = [0xD1, 0x60] ∧ assemble (.refresh .al) = [0xF6, 0x0E]
      ∧ assemble (.clear .e) = [0xD5, 0x40] ∧ assemble (.cIn 0x0002 .al) = [0xE2, 0x0E, 0x02, 0x00]
      ∧ assemble (.cOutB 0 .al) = [0xE5, 0x0E, 0x00, 0x00] ∧ assemble (.cmpS 0) = [0xBB, 0x00] := by decide

/-- W5 and X3 as the manual writes them; the displacement of W6. -/
theorem test_statement :
    statement (.cBr 0x04 .eq) = "#04 EQ cBR" ∧ statement (.cNLoad 0xFFFE .al) = "#FFFE AL cNLOAD"
      ∧ statement (.popPs .rsp) = "RSP POPPS" ∧ fixShort 0x0100 0x0108 = 0x006 := by decide

/-! ## One step (the vectors of `95_test_vectors.md`, printed by the manual where the name begins with W) -/

/-- The start of a vector: the instruction at #0200, P0 to P2, PSC and FLAGS; PSP #FEFE, RSP #FFFE, RSC 0. -/
def start (nbits w : Nat) (p0 p1 p2 ctr flags : Word) : State :=
  { State.reset with
    pc := 0x0200#16
    flags := Flags.ofWord flags
    ps := { regs := { StackRegs.zero with e0 := p0, e1 := p1, e2 := p2 }, ptr := 0xFEFE#16, ctr := ctr }
    rs := { regs := StackRegs.zero, ptr := 0xFFFE#16, ctr := 0#16 } : State }.withFetchWord nbits w

/-- One step ends in a next state of which `p` holds. -/
def after (s : State) (p : State → Bool) : Bool :=
  match step s with
  | .next t => p t
  | .fault _ => false
  | .refused _ => false

/-- One step is refused for the reason `r`. -/
def refused (s : State) (r : Refusal) : Bool :=
  match step s with
  | .next _ => false
  | .fault _ => false
  | .refused q => q == r

/-- C, Z, S, O. -/
def czso (t : State) : Bool × Bool × Bool × Bool := (t.flags.c, t.flags.z, t.flags.s, t.flags.o)

/-- P0, P1, P2, PSC. -/
def top (t : State) : Word × Word × Word × Word := (t.ps.regs.e0, t.ps.regs.e1, t.ps.regs.e2, t.ps.ctr)

-- W1
theorem test_adc : after (start 16 0xC010 0x16 0x10 0 2 1) (fun t =>
    t.p0 == 0x27 && t.ps.ctr == 1 && czso t == (false, false, false, false)) = true := by decide
-- A2: carry and overflow together
theorem test_add_overflow : after (start 16 0xC000 0x8000 0x8000 0 2 0) (fun t =>
    t.p0 == 0 && czso t == (true, true, false, true)) = true := by decide
-- A8, A9: the operand order of SUB, the borrow, the signed overflow
theorem test_sub_borrow : after (start 16 0xC040 1 0 0 2 0) (fun t =>
    t.p0 == 0xFFFF && czso t == (true, false, true, false)) = true := by decide
theorem test_sub_overflow : after (start 16 0xC040 1 0x8000 0 2 0) (fun t =>
    t.p0 == 0x7FFF && czso t == (false, false, false, true)) = true := by decide
-- A11
theorem test_rsub : after (start 16 0xC020 3 0xA 0 2 0) (fun t =>
    t.p0 == 0xFFF9 && czso t == (true, false, true, false)) = true := by decide
-- A18
theorem test_sbc : after (start 16 0xC050 1 5 0 2 1) (fun t =>
    t.p0 == 3 && czso t == (false, false, false, false)) = true := by decide
-- A19
theorem test_rsbc : after (start 16 0xC030 0 0xFFFF 0 2 1) (fun t =>
    t.p0 == 0 && czso t == (true, true, false, false)) = true := by decide
-- A14, A20: an sN and a uN operand
theorem test_sub_signed_operand : after (start 16 0xB280 0 0 0 1 0) (fun t =>
    t.p0 == 0x80 && czso t == (true, false, false, false)) = true := by decide
theorem test_rsbc_unsigned_operand : after (start 16 0xA510 1 0 0 1 1) (fun t =>
    t.p0 == 0xE && czso t == (false, false, false, false)) = true := by decide
-- A22, A25
theorem test_cmp : after (start 16 0xC0A0 1 0x8000 0 2 0) (fun t =>
    top t == (1, 0x8000, 0, 2) && czso t == (false, false, false, true)) = true := by decide
theorem test_rcmp : after (start 16 0xC0B0 5 6 0 2 0) (fun t =>
    top t == (5, 6, 0, 2) && czso t == (true, false, true, false)) = true := by decide
-- W3, W13, A31, A34
theorem test_and : after (start 16 0xC060 0x7B 0xC3 0 2 9) (fun t =>
    t.p0 == 0x43 && t.ps.ctr == 1 && czso t == (false, false, false, false)) = true := by decide
theorem test_eor : after (start 16 0xA85D 0x96 0 0 1 0) (fun t => t.p0 == 0xCB) = true := by decide
theorem test_or : after (start 16 0xB780 1 0 0 1 0) (fun t =>
    t.p0 == 0xFF81 && czso t == (false, false, true, false)) = true := by decide
theorem test_tst : after (start 16 0xC0E0 0xF0 0xF 0 2 0) (fun t =>
    top t == (0xF0, 0xF, 0, 2) && czso t == (false, true, false, false)) = true := by decide
-- W15, A36
theorem test_mask : after (start 16 0xC0C0 2 0 0 1 0) (fun t => t.p0 == 4 && t.ps.ctr == 1) = true := by decide
theorem test_mask_ignores_high_nibble : after (start 16 0xACF3 0 0 0 1 0) (fun t => t.p0 == 8) = true := by decide
-- W10, W16, A40
theorem test_cpl : after (start 16 0xC0D0 0xB4 0 0 1 0) (fun t => t.p0 == 0xFF4B) = true := by decide
theorem test_neg : after (start 16 0xC0F0 1 0 0 1 0) (fun t =>
    t.p0 == 0xFFFF && czso t == (true, false, true, false)) = true := by decide
theorem test_neg_most_negative : after (start 16 0xC0F0 0x8000 0 0 1 0) (fun t =>
    t.p0 == 0x8000 && czso t == (true, false, true, false)) = true := by decide
-- W4, A43, A44, A47, A49
theorem test_asr : after (start 16 0xC290 0x8038 0 0 1 1) (fun t =>
    t.p0 == 0xC01C && czso t == (false, false, true, false)) = true := by decide
theorem test_lsl : after (start 16 0xC200 0x4001 0 0 1 8) (fun t =>
    t.p0 == 0x8002 && czso t == (false, false, true, false)) = true := by decide
theorem test_lsr : after (start 16 0xC210 0x8001 0 0 1 4) (fun t =>
    t.p0 == 0x4000 && czso t == (true, false, false, false)) = true := by decide
theorem test_rol : after (start 16 0xC220 0x8000 0 0 1 0) (fun t =>
    t.p0 == 0 && czso t == (true, true, false, false)) = true := by decide
theorem test_ror : after (start 16 0xC230 0 0 0 1 1) (fun t =>
    t.p0 == 0x8000 && czso t == (false, false, true, false)) = true := by decide
-- A51
theorem test_xb : after (start 16 0xFD00 0x12FF 0 0 1 3) (fun t =>
    t.p0 == 0xFF12 && czso t == (true, true, false, false)) = true := by decide
-- W11 (register 15 takes a free value and the machine goes on), W17, W18, W19
theorem test_del : after (start 16 0xC110 12 5 8 3 0) (fun t =>
    t.p0 == 5 && t.p1 == 8 && t.ps.ctr == 2 && t.free == 1) = true := by decide
theorem test_rtd : after (start 16 0xC150 5 8 12 3 0) (fun t => top t == (12, 5, 8, 3)) = true := by decide
theorem test_rtu : after (start 16 0xC140 12 5 8 3 0) (fun t => top t == (5, 8, 12, 3)) = true := by decide
theorem test_sot : after (start 16 0xC130 12 5 0 2 0) (fun t => top t == (5, 12, 5, 3)) = true := by decide
-- S1: the spill of a push at 16
theorem test_dupl_spills : after
    (let s := start 16 0xC100 0x0100 0x0101 0 16 0
     { s with ps := { s.ps with regs := { s.ps.regs with e15 := 0x010F } } }) (fun t =>
      t.p1 == 0x0100 && t.ps.ctr == 17 && t.ps.ptr == 0xFEFC && t.mem.readWord 0xFEFE == 0x010F) = true := by decide
-- S2: the refill of a pop at 17
theorem test_del_refills : after
    (let s := start 16 0xC110 0x0100 0x0101 0 17 0
     { s with ps := { s.ps with ptr := 0xFEFC }, mem := s.mem.writeWord 0xFEFE 0xBEEF }) (fun t =>
      t.p0 == 0x0101 && t.ps.regs.e15 == 0xBEEF && t.ps.ctr == 16 && t.ps.ptr == 0xFEFE) = true := by decide
-- S8
theorem test_ptor : after (start 16 0xC160 0x1234 0x5678 0 2 0) (fun t =>
    t.p0 == 0x5678 && t.ps.ctr == 1 && t.r0 == 0x1234 && t.rs.ctr == 1) = true := by decide
-- S18, S20, S23
theorem test_pushps_counter : after (start 16 0xD050 9 8 7 3 0) (fun t => t.p0 == 3 && t.ps.ctr == 4) = true := by decide
theorem test_pushps_flags : after (start 16 0xD030 0 0 0 0 0x14D5) (fun t => t.p0 == 0x14D5) = true := by decide
theorem test_popps_counter : after (start 16 0xD150 4 0 0 1 0) (fun t => t.ps.ctr == 4) = true := by decide
-- S37, S35
theorem test_clear : after (start 16 0xD540 0 0 0 0 0xFCFF) (fun t => t.flags.toWord 0 == 0xFCEF) = true := by decide
theorem test_set_i_refused : refused (start 16 0xD450 0 0 0 0 0) (.unpredictableSet .i) = true := by decide
-- W14: FLAG replaces P0
theorem test_flag : after (start 16 0xFF00 0x1234 0 0 1 2) (fun t => t.p0 == 1 && t.ps.ctr == 1) = true := by decide
-- M5: an odd address is not looked at when the condition is not met; M18: the byte order of a store
theorem test_cload_not_met : after (start 32 0x12358200 0 0 0 0 0) (fun t =>
    t.ps.ctr == 0 && t.flags.z == false && t.pc == 0x0204) = true := by decide
theorem test_cstore : after (start 32 0x0400830E 0x1234 7 0 2 0) (fun t =>
    t.p0 == 7 && t.flags.z && t.mem.read 0x0400 == 0x34 && t.mem.read 0x0401 == 0x12) = true := by decide
-- M24: two entries are needed
theorem test_cpstore_underflow : after (start 16 0x8B0E 0x0400 0x1234 0 1 0) (fun t =>
    t.pc == 0x0008 && t.r0 == 0x0200 && t.ps.ctr == 1 && t.mem.readWord 0x0400 == 0) = true := by decide
-- W5, B11, B18
theorem test_cbr : after ({ State.reset with pc := 0x0480, flags := Flags.ofWord 2 : State }.withFetchWord 16 0x9004)
    (fun t => t.pc == 0x0486) = true := by decide
theorem test_sbr_wraps : after (start 16 0x4800 0 0 0 0 0) (fun t => t.pc == 0xFA02) = true := by decide
theorem test_cpbsr_odd : after (start 16 0x8F0E 0x0011 0 0 1 0) (fun t =>
    t.pc == 0x000C && t.p0 == 0x0011 && t.ps.ctr == 1 && t.rs.ctr == 0) = true := by decide
-- B15 (W7's printed target is a misprint, decision D29)
theorem test_cpbsr : after (start 16 0x8F0E 0x0010 0 0 1 0) (fun t =>
    t.pc == 0x0214 && t.r0 == 0x0202 && t.ps.ctr == 0 && t.rs.ctr == 1) = true := by decide
-- W8
theorem test_sbsr : after ({ State.reset with pc := 0x0100 : State }.withFetchWord 16 0x5006)
    (fun t => t.pc == 0x0108 && t.r0 == 0x0102 && t.rs.ctr == 1) = true := by decide
-- I13: cpOUT keeps Z
theorem test_cpout : after (start 16 0xEB0E 0x0010 0x1234 7 3 0) (fun t =>
    t.p0 == 7 && t.flags.z == false && t.env.portLog == [.write16 0x0010 0x1234]) = true := by decide
-- Y1
theorem test_emulate : after
    (let s := start 16 0xF00E 0 0 0 0 0
     { s with ppc := 0x2000, mem := (s.mem.writeWord 0x2000 0x1000).writeWord 0x1000 0x0700 }) (fun t =>
      t.ppc == 0x2002 && t.hp == 0x1002 && t.pc == 0x0700) = true := by decide
-- Y18
theorem test_refresh_wraps : after
    (let s := start 16 0xF60E 0 0 0 0 0
     { s with rr := 0xFFFE, mem := s.mem.writeWord 0xFFFE 0x1234 }) (fun t =>
      t.rr == 0 && t.mem.readWord 0xFFFE == 0x1234) = true := by decide
-- A53, A54
theorem test_undefined_opcode :
    refused (start 16 0xA900 0 0 0 0 0) (.undefinedEncoding (.undefinedOpcode 0xA9)) = true := by decide
theorem test_undefined_field :
    refused (start 16 0xC091 0 0 0 0 0) (.undefinedEncoding (.undefinedField 0xC0 0x91)) = true := by decide
-- E7: the interrupt with the return stack full, then the handler's first instruction (#0000, `#000 sJMP`)
theorem test_interrupt_spills : after
    (let s := start 16 0xC090 0 0 0 0 0x40
     { s with rs := { regs := { StackRegs.zero with e0 := 0x0200, e15 := 0x020F }, ptr := 0xFFFE, ctr := 16 },
              env := { s.env with boundary := [⟨false, false, true⟩] } }) (fun t =>
      t.r0 == 0x0200 && t.rs.ctr == 17 && t.rs.ptr == 0xFFFC && t.mem.readWord 0xFFFE == 0x020F
        && t.flags.i && !t.flags.ie) = true := by decide
-- E5
theorem test_reset_entry : after
    (let s := start 16 0xC090 0xAAAA 0 0 5 0x24FF
     { s with rr := 0x4000, env := { s.env with boundary := [⟨true, false, false⟩] } }) (fun t =>
      t.pc == 0 && t.rr == 0 && t.ps.ctr == 0 && t.rs.ctr == 0 && t.flags.toWord 0 == 0x24FF && t.p0 == 0xAAAA
        && t.ps.ptr == 0xFEFE) = true := by decide
-- E13: the report of a corrected data read, EC from 63 to 0
theorem test_edac_wraps : after
    (let s := start 32 0x1234820E 0 0 0 0 0xFC00
     { s with mem := s.mem.writeWord 0x1234 0xABCD, env := { s.env with edac := [false, false, false, true] } }) (fun t =>
      t.p0 == 0xABCD && t.flags.toWord 0 == 0x0082 && t.ea == 0x1234) = true := by decide

/-! ## States that meet the hypotheses of the statements

One theorem for each statement of `Certificates/Slice0/Obligations.lean` that has hypotheses, its clauses in order. -/

/-- Both stacks with 16 entries and a pointer at the last word of memory: a push spills there. -/
def full : State :=
  { State.reset with
    ps := { regs := StackRegs.zero, ptr := 0xFFFE, ctr := 16 }
    rs := { regs := StackRegs.zero, ptr := 0xFFFE, ctr := 16 } }

/-- Both stacks with 18 entries and the pointer so that two pops refill from the last two words of memory. -/
def deep : State :=
  { State.reset with
    ps := { regs := StackRegs.zero, ptr := 0xFFFA, ctr := 18 }
    rs := { regs := StackRegs.zero, ptr := 0xFFFA, ctr := 18 } }

/-- One entry on each stack, P0 = #0400, P1 = #1234, R0 = #0302, and Z = 1. -/
def single : State :=
  { State.reset with
    flags := Flags.ofWord 2
    ps := { regs := { StackRegs.zero with e0 := 0x0400, e1 := 0x1234 }, ptr := 0xFEFE, ctr := 1 }
    rs := { regs := { StackRegs.zero with e0 := 0x0302 }, ptr := 0xFFFE, ctr := 1 } }

/-- Two entries on each stack, else as `single`. -/
def double : State := { single with ps := { single.ps with ctr := 2 }, rs := { single.rs with ctr := 2 } }

/-- Everything odd that may be odd: the pointers, PPC, HP, RR, P0 and R0; `n` entries on each stack. -/
def oddState (n : Word) : State :=
  { State.reset with
    ppc := 0x2001
    hp := 0x1001
    rr := 0xFFFF
    ps := { regs := { StackRegs.zero with e0 := 0x0401 }, ptr := 0xFEFF, ctr := n }
    rs := { regs := { StackRegs.zero with e0 := 0x0303 }, ptr := 0xFFFF, ctr := n } }

/-- PPC at the last word of memory, which names the header at #1000, whose code address is `target`. -/
def threaded (target : Word) : State :=
  { State.reset with
    ppc := 0xFFFE
    hp := 0x1000
    mem := (Memory.writeWord [] 0x1000 target).writeWord 0xFFFE 0x1000 }

/-- `s` with a host that presents `b` at the coming boundary. -/
def presented (b : Boundary) (s : State) : State := { s with env := { s.env with boundary := [b] } }

/-- `s` with half of the memory fitted. -/
def small (s : State) : State := { s with cfg := { s.cfg with memBytes := 0x8000 } }

theorem witness_EncodeOfDecode :
    decode [0xC0, 0x90, 0x01] = .ok (.nop, [0x01]) ∧ decode [0x84, 0x07, 0x35, 0x12] = .ok (.cLoadB 0x1235 .vc, []) := by
  decide

theorem witness_LengthToldByFirstByte :
    decode (0xE5#8 :: [0x0E, 0x00, 0x00]) = .ok (.cOutB 0 .al, []) ∧ decode (0x86#8 :: [0x0E]) ≠ .ok (.nop, [])
      ∧ decode (0x88#8 :: [0x04, 0x55]) = .ok (.cpJsr .mi, [0x55]) := by decide

theorem witness_FormatsDecodeEveryOperand :
    (0xFF#8, Instr.flag) ∈ [(0xF6#8, Instr.refresh), (0xFF#8, .flag)]
      ∧ (0xF#4, Instr.neg) ∈ [(0x0#4, Instr.addP), (0xF#4, .neg)] := ⟨by simp, by decide⟩

theorem witness_UndefinedEncodingsAreRefused :
    (0x61#8).toNat ∈ [0x61, 0xFE] ∧ (0xFE#8).toNat ∈ [0x61, 0xFE] ∧ (0xFF#8).toNat ∉ [0x61, 0xFE]
      ∧ (0x82#8).toNat = 0x82 ∧ (0x1E#8).extractLsb' 4 4 ≠ 0#4 ∧ (0x91#8).extractLsb' 0 4 ≠ 0#4
      ∧ 0xA#4 ≤ (0xA0#8).extractLsb' 4 4 ∧ (0x40#8).extractLsb' 4 4 ∉ [0x0#4, 0x1#4, 0x2#4, 0x3#4, 0x9#4]
      ∧ 0x8#4 ≤ (0x80#8).extractLsb' 4 4
      ∧ (let s := start 16 0xC091 0 0 0 0 0
         s.quiet ∧ s.hasWord s.pc ∧ isLong (s.mem.read s.pc.toNat) = false
          ∧ decode [s.mem.read s.pc.toNat, s.mem.read (s.pc.toNat + 1)]
            = .error (.undefinedField 0xC0 0x91))
      ∧ (let s := start 32 0x0400821E 0 0 0 0 0
         s.quiet ∧ s.hasWord s.pc ∧ isLong (s.mem.read s.pc.toNat) = true ∧ s.hasWord (s.pc + 2#16)
          ∧ (s.mem.read (s.pc.toNat + 1)).extractLsb' 4 4 ≠ 0#4) := by decide

/-- A script that is over, and an entry without event before one with RST; an instruction at the last word of memory,
and one whose operand word wraps to #0000. -/
theorem witness_StepRunsDecodedInstruction :
    (let s := ({ State.reset with pc := 0xFFFE } : State).withFetchWord 16 0xC110
     s.quiet ∧ s.env.boundary = [] ∧ s.hasWord s.pc ∧ isLong (s.mem.read s.pc.toNat) = false
        ∧ decode [s.mem.read s.pc.toNat, s.mem.read (s.pc.toNat + 1)] = .ok (.del, []) ∧ s.env.edac = [])
      ∧ (let s := ({ State.reset with pc := 0xFFFE } : State).withFetchWord 32 0x0400830E
         s.quiet ∧ isLong (s.mem.read s.pc.toNat) = true ∧ s.hasWord s.pc ∧ s.hasWord (s.pc + 2#16)
          ∧ decode [s.mem.read s.pc.toNat, s.mem.read (s.pc.toNat + 1), s.mem.read (s.pc + 2#16).toNat,
            s.mem.read ((s.pc + 2#16).toNat + 1)] = .ok (.cStore 0x0400 .al, []))
      ∧ (let t := start 16 0xC090 0 0 0 0 0
         let s := { t with env := { t.env with boundary := [⟨false, false, false⟩, ⟨true, false, false⟩] } }
         s.quiet ∧ s.env.boundary = ⟨false, false, false⟩ :: [⟨true, false, false⟩] ∧ s.hasWord s.pc
          ∧ isLong (s.mem.read s.pc.toNat) = false
          ∧ decode [s.mem.read s.pc.toNat, s.mem.read (s.pc.toNat + 1)] = .ok (.nop, [])) := by decide

/-- The first entry of a script without event is used up and the instruction runs; the RST after it waits. -/
theorem test_quiet_boundary : after
    (let t := start 16 0xC090 0 0 0 0 0
     { t with env := { t.env with boundary := [⟨false, false, false⟩, ⟨true, false, false⟩] } }) (fun t =>
      t.pc == 0x0202 && t.env.boundary == [⟨true, false, false⟩]) = true := by decide

theorem witness_ResetEntersAtZero :
    (presented ⟨true, true, true⟩ deep).env.boundary = ⟨true, true, true⟩ :: [] ∧ (⟨true, true, true⟩ : Boundary).rst = true := by
  decide

theorem witness_ExternalEventAndResetOrder :
    (presented ⟨false, true, false⟩ single).env.boundary = ⟨false, true, false⟩ :: []
      ∧ (presented ⟨true, false, true⟩ single).env.boundary = ⟨true, false, true⟩ :: [] := by decide

theorem witness_InterruptTaken :
    let s := { presented ⟨false, true, true⟩ full with flags := Flags.ofWord 0x40 }
    s.mem.wf = true ∧ s.env.boundary = ⟨false, true, true⟩ :: [] ∧ s.flags.ie = true ∧ s.pushReady .ret := by decide

theorem witness_InterruptMasked :
    let s := presented ⟨false, false, true⟩ full
    s.env.boundary = ⟨false, false, true⟩ :: [] ∧ s.flags.ie = false := by decide

theorem witness_UnderflowTraps :
    (let s := { full with ps := { full.ps with ctr := 0 } }
     s.mem.wf = true ∧ s.pushReady .ret ∧ paramUnderflows .addP s ∧ paramUnderflows (.cStore 0 .al) s
        ∧ paramUnderflows (.cpIn .eq) s ∧ paramUnderflows (.cpJmp .eq) s)
      ∧ (State.reset.pushReady .ret ∧ paramUnderflows (.cpOut .al) { single with flags := Flags.ofWord 0 })
      ∧ returnUnderflows .rtop State.reset ∧ returnUnderflows (.popRs .ppc) State.reset
      ∧ returnUnderflows (.cRts .al) State.reset := by
  exact ⟨⟨by decide, by decide, rfl, ⟨rfl, rfl⟩, ⟨rfl, rfl⟩, rfl⟩, ⟨by decide, Nat.lt_succ_self 1⟩, rfl, rfl, rfl, rfl⟩

theorem witness_PcOddTraps :
    (let s := oddState 1
     computedTarget (.cpJsr .al) s = some 0x0401 ∧ isOdd 0x0401 = true ∧ ¬ paramUnderflows (.cpJsr .al) s
        ∧ ¬ returnUnderflows (.cpJsr .al) s ∧ computedTarget (.cRts .al) s = some 0x0303
        ∧ ¬ returnUnderflows (.cRts .al) s ∧ ¬ paramUnderflows (.cRts .al) s)
      ∧ (let s := threaded 0x0701
         s.cond .al = true ∧ s.cfg.hasEmulate = true ∧ s.hasWord s.ppc ∧ s.hasWord (s.mem.readWord s.ppc.toNat)
          ∧ isOdd (s.mem.readWord (s.mem.readWord s.ppc.toNat).toNat) = true
          ∧ s.hasWord s.hp ∧ isOdd (s.mem.readWord s.hp.toNat) = true) := by
  refine ⟨⟨by decide, by decide, ?_, id, by decide, ?_, id⟩, by decide⟩
  · exact (by decide : ¬ (oddState 1).ps.ctr.toNat = 0)
  · exact (by decide : ¬ ((oddState 1).cond .al = true ∧ (oddState 1).rs.ctr.toNat = 0))

theorem witness_StepKeepsInvariant :
    State.reset.Inv ∧ step State.reset = .next { State.reset with pc := 0x0000 }
      ∧ (start 16 0xC100 0x0100 0x0101 0 16 0).Inv := ⟨by decide, by rfl, by decide⟩

theorem witness_OnlyIoCallsTheHost :
    exec .nop single = .next single.next2 ∧ isIo .nop = false := ⟨by rfl, by rfl⟩

theorem witness_FlagsWrittenOnlyAsListed :
    exec .swap single = .next ((single.setP01 0x1234 0x0400).next2) ∧ writesFlagsByName .swap = false
      ∧ writesArithmeticFlags .swap = false ∧ writesZOnly .swap = false ∧ single.env.edac = [] :=
  ⟨by rfl, by rfl, by rfl, by rfl, by rfl⟩

theorem witness_SupportRegistersWrittenOnlyAsListed :
    exec .nop single = .next single.next2 ∧ Instr.nop ≠ .twoBlit ∧ (∀ k, Instr.nop ≠ .emulate k)
      ∧ (∀ k, Instr.nop ≠ .refresh k) ∧ Instr.nop ≠ .popPs .ea ∧ single.env.edac = [] :=
  ⟨by rfl, by decide, by simp, by simp, by decide, by rfl⟩

theorem witness_WritesChangeTheirBytes :
    deep.mem.wf = true ∧ deep.hasByte 0xFFFF ∧ deep.hasWord 0xFFFE ∧ (small deep).hasByte 0x7FFF
      ∧ ¬ (small deep).hasWord 0x8000 := by decide

theorem witness_ReadsGiveTheBytes : deep.hasByte 0xFFFF ∧ deep.hasWord 0xFFFE ∧ deep.hasWord 0x0000 := by decide

theorem witness_EdacReportCountsCorrections :
    ({ single.env with edac := [true] } : HostEnv).edac = true :: [] ∧ ({ single.env with edac := [false] } : HostEnv).edac
      = false :: [] ∧ single.env.edac = [] := by decide

/-- AddStackForms, SubtractStackForms, LogicAndTestForms, DeleteAndTransfers, RegisterPops: a pop with 1, with 16, with
17 or more entries. -/
theorem witness_popReady :
    single.popReady .param ∧ full.popReady .param ∧ deep.popReady .param ∧ single.popReady .ret ∧ full.popReady .ret
      ∧ deep.popReady .ret ∧ deep.mem.wf = true := by decide

/-- DeleteAndTransfers: PTOR and RTOP at a refill and a spill. -/
theorem witness_DeleteAndTransfers :
    let s := { deep with rs := full.rs }
    let u := { full with rs := deep.rs }
    s.popReady .param ∧ s.pushReady .ret ∧ u.popReady .ret ∧ u.pushReady .param ∧ s.mem.wf = true := by decide

theorem witness_NegateTwosComplement :
    (start 16 0xC0F0 0x8000 0 0 1 0).p0 = 0x8000#16 := by decide

/-- PushingInstructions, RegisterPushes: a push with 0, with 15 and with 16 entries. -/
theorem witness_PushingInstructions :
    full.mem.wf = true ∧ full.pushReady .param ∧ full.pushReady .ret ∧ State.reset.pushReady .param
      ∧ (start 16 0 0 0 0 15 0).pushReady .param := by decide

theorem witness_RegisterPushes :
    (Reg.psc, full.ps.ctr) ∈ [(Reg.psp, full.ps.ptr), (.psc, full.ps.ctr)] ∧ full.mem.wf = true ∧ full.pushReady .param
      ∧ full.pushReady .ret := by decide

/-- RegisterPops: the popped word is even (#0400, #0302). -/
theorem witness_RegisterPops :
    single.popReady .param ∧ isOdd (single.stack .param).regs.e0 = false ∧ deep.popReady .ret
      ∧ isOdd (single.stack .ret).regs.e0 = false := by decide

theorem witness_FlagReplacesP0 : single.cond .eq = true ∧ single.cond .ne = false := by decide

theorem witness_PushingLoads :
    full.mem.wf = true ∧ full.cond .al = true ∧ full.pushReady .param ∧ full.hasWord 0xFFFE ∧ full.hasByte 0xFFFF
      ∧ full.hasWord 0x0000 := by decide

theorem witness_LongFormsNotMetClearZ :
    single.cond .ne = false ∧ Instr.cOutB 0xFFFF .ne ∈ [Instr.cLoad 0xFFFF .ne, .cOutB 0xFFFF .ne] := by decide

theorem witness_ReplacingLoads :
    single.cond .eq = true ∧ single.hasWord single.p0 ∧ single.hasByte single.p0
      ∧ State.reset.hasByte (oddState 0).p0 ∧ single.hasWord ((0xFFE : BitVec 12).setWidth 16) := by decide

theorem witness_StackFormsNotMetPop :
    single.cond .ne = false ∧ single.popReady .param ∧ deep.cond .eq = false ∧ deep.popReady .param
      ∧ Instr.cpInB .eq ∈ [Instr.cpLoad .eq, .cpInB .eq] := by decide

theorem witness_AbsoluteStores :
    single.mem.wf = true ∧ single.cond .al = true ∧ single.popReady .param ∧ single.hasWord 0xFFFE
      ∧ single.hasByte 0xFFFF ∧ deep.popReady .param ∧ single.hasWord ((0xFFE : BitVec 12).setWidth 16) := by decide

theorem witness_StackStores :
    double.mem.wf = true ∧ double.popTwiceReady .param ∧ deep.popTwiceReady .param ∧ full.popTwiceReady .param
      ∧ double.cond .al = true ∧ double.hasWord double.p0 ∧ double.hasByte double.p0 ∧ double.cond .ne = false := by decide

theorem witness_BranchesAndJumps :
    single.cond .al = true ∧ isOdd (single.pc + 2#16 + (0x80#8).signExtend 16) = false ∧ single.cond .ne = false
      ∧ isOdd (single.pc + 2#16 + (0x7FE#12).signExtend 16) = false ∧ isOdd 0xFFFE#16 = false
      ∧ isOdd ((0xFFE#12).setWidth 16) = false ∧ single.popReady .param ∧ isOdd single.p0 = false
      ∧ deep.popReady .param := by decide

theorem witness_Calls :
    (let s := { single with rs := full.rs }
     s.mem.wf = true ∧ s.pushReady .ret ∧ isOdd ((0x300#12).setWidth 16) = false
        ∧ isOdd (s.pc + 2#16 + (0xFFC#12).signExtend 16) = false ∧ s.cond .al = true ∧ isOdd 0x0700#16 = false
        ∧ s.cond .ne = false ∧ s.popReady .param ∧ isOdd s.p0 = false ∧ isOdd (s.pc + 4#16 + s.p0) = false)
      ∧ ({ deep with rs := full.rs } : State).popReady .param ∧ ({ deep with rs := full.rs } : State).pushReady .ret := by
  decide

theorem witness_ReturnFromSubroutine :
    single.cond .al = true ∧ single.popReady .ret ∧ isOdd single.r0 = false ∧ single.cond .ne = false
      ∧ deep.popReady .ret ∧ isOdd deep.r0 = false := by decide

theorem witness_Inputs :
    ({ single.env with portIn := [0x4142] } : HostEnv).portIn = 0x4142#16 :: [] ∧ full.env.portIn = []
      ∧ full.cond .al = true ∧ full.mem.wf = true ∧ full.pushReady .param ∧ isOdd 0xFFFE#16 = false
      ∧ single.cond .al = true ∧ isOdd single.p0 = false := by decide

theorem witness_Outputs :
    double.cond .al = true ∧ double.popReady .param ∧ isOdd 0xFFFE#16 = false ∧ double.popTwiceReady .param
      ∧ isOdd double.p0 = false ∧ double.cond .ne = false ∧ deep.popTwiceReady .param ∧ isOdd deep.p0 = false := by decide

theorem witness_IpsListInstructions :
    (let s := { threaded 0x0700 with ps := full.ps, rs := full.rs }
     s.mem.wf = true ∧ s.pushReady .ret ∧ s.hasWord s.ppc ∧ s.pushReady .param) := by decide

/-- IpsInnerInterpreter, PrepareThenExecuteIsEmulate. -/
theorem witness_IpsInnerInterpreter :
    (let s := threaded 0x0700
     s.cond .al = true ∧ s.cfg.hasEmulate = true ∧ s.hasWord s.ppc ∧ s.hasWord (s.mem.readWord s.ppc.toNat)
        ∧ isOdd (s.mem.readWord (s.mem.readWord s.ppc.toNat).toNat) = false
        ∧ s.hasWord s.hp ∧ isOdd (s.mem.readWord s.hp.toNat) = false ∧ s.cond .eq = false) := by decide

theorem witness_PrepareThenExecuteIsEmulate :
    (let s := threaded 0x0700
     s.cond .al = true ∧ s.cfg.hasEmulate = true ∧ s.hasWord s.ppc ∧ s.hasWord (s.mem.readWord s.ppc.toNat)
        ∧ isOdd (s.mem.readWord (s.mem.readWord s.ppc.toNat).toNat) = false) := by decide

theorem witness_RefreshWashesOneWord :
    let s := { threaded 0x0700 with rr := 0xFFFE }
    s.mem.wf = true ∧ s.cond .al = true ∧ s.hasWord s.rr ∧ s.cond .eq = false := by decide

theorem witness_OddWordAccessIsRefused :
    (let s := oddState 2
     s.cond .al = true ∧ isOdd 0xFFFF#16 = true ∧ isOdd s.p0 = true ∧ isOdd ((0xFFF#12).setWidth 16) = true
        ∧ s.ps.ctr ≠ 0#16 ∧ 2 ≤ s.ps.ctr.toNat ∧ isOdd s.ppc = true ∧ s.cfg.hasEmulate = true ∧ isOdd s.hp = true
        ∧ isOdd s.rr = true)
      ∧ (let s := { threaded 0x0700 with mem := Memory.writeWord [] 0xFFFE 0x1001 }
         s.cond .al = true ∧ s.cfg.hasEmulate = true ∧ s.hasWord s.ppc
          ∧ isOdd (s.mem.readWord s.ppc.toNat) = true) := by decide

/-- Pushes at 16, pops at 17, the trap entry and the interrupt at 16, each through an odd pointer. -/
theorem witness_OddStackPointerIsRefused :
    (let s := { oddState 16 with flags := Flags.ofWord 0x40 }
     let u := presented ⟨false, true, true⟩ s
     16 ≤ (s.stack .param).ctr.toNat ∧ isOdd (s.stack .param).ptr = true ∧ 16 ≤ s.rs.ctr.toNat ∧ isOdd s.rs.ptr = true
        ∧ isOdd ((0x300#12).setWidth 16) = false ∧ isOdd (s.pc + 2#16 + (0xFFC#12).signExtend 16) = false
        ∧ s.flags.ie = true ∧ 16 ≤ u.rs.ctr.toNat ∧ isOdd u.rs.ptr = true ∧ u.flags.ie = true
        ∧ u.env.boundary = ⟨false, true, true⟩ :: [])
      ∧ (let s := { oddState 16 with ps := { (oddState 16).ps with ctr := 0 } }
         16 ≤ s.rs.ctr.toNat ∧ isOdd s.rs.ptr = true ∧ paramUnderflows .del s)
      ∧ (let s := oddState 17
         16 < (s.stack .param).ctr.toNat ∧ isOdd ((s.stack .param).ptr + 2#16) = true ∧ 16 < s.rs.ctr.toNat
          ∧ isOdd (s.rs.ptr + 2#16) = true) := by
  refine ⟨by decide, ⟨by decide, by decide, ?_⟩, by decide⟩
  exact (by decide : ({ oddState 16 with ps := { (oddState 16).ps with ctr := 0 } } : State).ps.ctr.toNat = 0)

/-- `s` with memory up to #8000 only, so that of the word there the upper byte alone is absent. -/
def halved (s : State) : State := { s with cfg := { s.cfg with memBytes := 0x8001 } }

/-- The refused forms. -/
theorem witness_RefusedFormsAndAbsentMemory :
    (let s := oddState 2
     s.cond .al = true ∧ isOdd 0x0003#16 = true ∧ s.ps.ctr ≠ 0#16 ∧ isOdd s.p0 = true ∧ 2 ≤ s.ps.ctr.toNat)
      ∧ ({ Config.default with hasEmulate := false } : Config).hasEmulate = false := by decide

/-- Absent bytes, and words of which the upper byte alone is absent: absolute, short, from the stack, from PPC, the
header, HP and RR. -/
theorem witness_AbsentMemory_accesses :
    (let s := small single
     s.cond .al = true ∧ s.cfg.memBytes ≤ (0x8000#16).toNat ∧ s.ps.ctr ≠ 0#16)
      ∧ (let s := halved { double with ppc := 0x8000, hp := 0x8000, rr := 0x8000,
                                       ps := { double.ps with regs := { double.ps.regs with e0 := 0x8000 } } }
         s.cond .al = true ∧ isOdd 0x8000#16 = false ∧ s.cfg.memBytes ≤ (0x8000#16).toNat + 1 ∧ isOdd s.p0 = false
          ∧ s.cfg.memBytes ≤ s.p0.toNat + 1 ∧ 2 ≤ s.ps.ctr.toNat ∧ isOdd s.ppc = false
          ∧ s.cfg.memBytes ≤ s.ppc.toNat + 1 ∧ s.cfg.hasEmulate = true ∧ isOdd s.hp = false
          ∧ s.cfg.memBytes ≤ s.hp.toNat + 1 ∧ isOdd s.rr = false ∧ s.cfg.memBytes ≤ s.rr.toNat + 1)
      ∧ (let s := small { double with ps := { double.ps with regs := { double.ps.regs with e0 := 0x8000 } } }
         s.cond .al = true ∧ s.cfg.memBytes ≤ s.p0.toNat ∧ 2 ≤ s.ps.ctr.toNat)
      ∧ (let s := { single with cfg := { single.cfg with memBytes := 0x0FFF } }
         isOdd ((0xFFE#12).setWidth 16) = false ∧ s.cfg.memBytes ≤ (0xFFE#12).toNat + 1)
      ∧ (let s := halved { State.reset with ppc := 0x2000, mem := Memory.writeWord [] 0x2000 0x8000 }
         s.cond .al = true ∧ s.cfg.hasEmulate = true ∧ s.hasWord s.ppc
          ∧ isOdd (s.mem.readWord s.ppc.toNat) = false
          ∧ s.cfg.memBytes ≤ (s.mem.readWord s.ppc.toNat).toNat + 1) := by decide

/-- A spill, a refill, and the three places where a fetch can find memory absent. -/
theorem witness_AbsentMemory_stacks_and_fetch :
    (let s := halved full
     16 ≤ (s.stack .ret).ctr.toNat ∧ isOdd (s.stack .ret).ptr = false
        ∧ s.cfg.memBytes ≤ (s.stack .ret).ptr.toNat + 1)
      ∧ (let s := halved deep
         16 < (s.stack .param).ctr.toNat ∧ isOdd ((s.stack .param).ptr + 2#16) = false
          ∧ s.cfg.memBytes ≤ ((s.stack .param).ptr + 2#16).toNat + 1)
      ∧ (let s := small { State.reset with pc := 0x8000 }
         s.quiet ∧ isOdd s.pc = false ∧ s.cfg.memBytes ≤ s.pc.toNat)
      ∧ (let s := halved { State.reset with pc := 0x8000 }
         isOdd s.pc = false ∧ s.cfg.memBytes = s.pc.toNat + 1)
      ∧ (let s := small (({ State.reset with pc := 0x7FFE } : State).withFetchWord 32 0x0000820E)
         s.quiet ∧ isOdd s.pc = false ∧ s.hasWord s.pc ∧ isLong (s.mem.read s.pc.toNat) = true
          ∧ s.cfg.memBytes ≤ (s.pc + 2#16).toNat + 1) := by decide

end Sys2Proof.Tests
end

section
/-! PROOFS. What every operation keeps. `Lawful`: the canonical form of memory, an even PC and the parameters, as a
relation between a state and a later one. `Frame`: besides, every register and flag that an instruction is not listed to
write. Each shared operation keeps them, so each instruction does, by the rules of `Laws/Sat.lean`. -/

namespace Sys2Proof.Machine

/-! ## The invariant as a relation -/

/-- `t` has the parameters of `s`, and memory canonical and PC even where `s` has them so (R8, R29, R78). -/
structure Lawful (s t : State) : Prop where
  cfg : t.cfg = s.cfg
  mem : s.cfg.legal → s.mem.wf = true → t.mem.wf = true
  pc : isOdd s.pc = false → isOdd t.pc = false

namespace Lawful

variable {s t u : State}

theorem refl (s : State) : Lawful s s := ⟨rfl, fun _ h => h, fun h => h⟩

theorem trans (h : Lawful s t) (h' : Lawful t u) : Lawful s u where
  cfg := h'.cfg.trans h.cfg
  mem hc hm := h'.mem (h.cfg ▸ hc) (h.mem hc hm)
  pc hp := h'.pc (h.pc hp)

/-- Across a lawful change the invariant stays. -/
theorem inv (h : Lawful s t) (hs : s.Inv) : t.Inv ∧ t.cfg = s.cfg := by
  obtain ⟨hm, hp, hc⟩ := hs
  exact ⟨⟨h.mem hc hm, h.pc hp, h.cfg ▸ hc⟩, h.cfg⟩

theorem goto (h : Lawful s u) {a : Word} (ha : isOdd a = false) : Lawful s (u.goto a) := { h with pc := fun _ => ha }

theorem next2 (h : Lawful s u) : Lawful s u.next2 := { h with pc := fun hp => (isOdd_after2 _).trans (h.pc hp) }

theorem next4 (h : Lawful s u) : Lawful s u.next4 := { h with pc := fun hp => (isOdd_after4 _).trans (h.pc hp) }

theorem setFlags (h : Lawful s u) (f : Flags) : Lawful s (u.setFlags f) := { h with }

theorem setBoundary (h : Lawful s u) (l : List Boundary) : Lawful s (u.setBoundary l) := { h with }

theorem setStack (h : Lawful s u) (k : StackId) (st : Stack) : Lawful s (u.setStack k st) := by
  cases k with
  | param => exact { h with }
  | ret => exact { h with }

theorem edacReport (h : Lawful s u) (a : Word) : Lawful s (u.edacReport a) where
  cfg := by simpa using h.cfg
  mem := by simpa using h.mem
  pc := by simpa using h.pc

theorem memWrite8 (h : Lawful s u) (a : Word) (v : Byte) :
    Lawful s { u with mem := u.mem.write a.toNat v } :=
  { h with mem := fun hc hm => Memory.wf_write v (h.mem hc hm) a.isLt }

theorem memWrite16 (h : Lawful s u) {a : Word} (ha : u.hasWord a) (v : Word) :
    Lawful s { u with mem := u.mem.writeWord a.toNat v } :=
  { h with mem := fun hc hm => Memory.wf_writeWord v (h.mem hc hm) (Nat.lt_of_lt_of_le ha.2 (h.cfg ▸ hc.2)) }

theorem afterPush (h : Lawful s u) {k : StackId} (hr : u.pushReady k) (v : Word) : Lawful s (u.afterPush k v) where
  cfg := by simpa using h.cfg
  mem hc hm := afterPush_wf k v (h.mem hc hm) (h.cfg ▸ hc) hr
  pc := by simpa using h.pc

theorem afterPop (h : Lawful s u) (k : StackId) : Lawful s (u.afterPop k) where
  cfg := by simpa using h.cfg
  mem := by simpa using h.mem
  pc := by simpa using h.pc

end Lawful

/-! ## Which instructions write PPC, HP, RR and EA -/

/-- The instructions that write PPC (R44). -/
def writesPpc (i : Instr) : Bool :=
  match i with
  | .twoBlit | .emulate _ | .prepare _ | .jppc | .dfx | .popPs .ppc | .popRs .ppc => true
  | _ => false

/-- The instructions that write HP (R45). -/
def writesHp (i : Instr) : Bool :=
  match i with
  | .emulate _ | .prepare _ | .execute _ | .popPs .hp | .popRs .hp => true
  | _ => false

/-- The instructions that write RR (R50). -/
def writesRr (i : Instr) : Bool :=
  match i with
  | .refresh _ | .popPs .rr | .popRs .rr => true
  | _ => false

/-- The instructions that write EA, EDAC reports apart (R51). -/
def writesEa (i : Instr) : Bool :=
  match i with
  | .popPs .ea | .popRs .ea => true
  | _ => false

/-! ## The frame of an instruction -/

/-- `t` is lawful after `s`, and differs from it only where instruction `i`, or an EDAC report, may write. -/
structure Frame (i : Instr) (s t : State) : Prop extends Lawful s t where
  events : writesFlagsByName i = false →
    t.flags.e = s.flags.e ∧ t.flags.i = s.flags.i ∧ t.flags.ie = s.flags.ie
  arithmetic : writesFlagsByName i = false → writesArithmeticFlags i = false →
    t.flags.c = s.flags.c ∧ t.flags.s = s.flags.s ∧ t.flags.o = s.flags.o
  z : writesFlagsByName i = false → writesArithmeticFlags i = false → writesZOnly i = false → t.flags.z = s.flags.z
  errors : writesFlagsByName i = false → s.env.edac = [] → t.flags.ee = s.flags.ee ∧ t.flags.ec = s.flags.ec
  ppc : writesPpc i = false → t.ppc = s.ppc
  hp : writesHp i = false → t.hp = s.hp
  rr : writesRr i = false → t.rr = s.rr
  ea : writesEa i = false → s.env.edac = [] → t.ea = s.ea
  edac : s.env.edac = [] → t.env.edac = []

namespace Frame

variable {i : Instr} {s t u : State}

theorem refl (i : Instr) (s : State) : Frame i s s where
  toLawful := .refl s
  events _ := ⟨rfl, rfl, rfl⟩
  arithmetic _ _ := ⟨rfl, rfl, rfl⟩
  z _ _ _ := rfl
  errors _ _ := ⟨rfl, rfl⟩
  ppc _ := rfl
  hp _ := rfl
  rr _ := rfl
  ea _ _ := rfl
  edac h := h

/-! ### PC -/

theorem goto (h : Frame i s u) {a : Word} (ha : isOdd a = false) : Frame i s (u.goto a) :=
  { h with toLawful := h.toLawful.goto ha }

theorem next2 (h : Frame i s u) : Frame i s u.next2 := { h with toLawful := h.toLawful.next2 }

theorem next4 (h : Frame i s u) : Frame i s u.next4 := { h with toLawful := h.toLawful.next4 }

/-! ### Flags, for the instructions that are listed to write them -/

theorem setFlags (h : Frame i s u) (hi : writesFlagsByName i = true) (f : Flags) : Frame i s (u.setFlags f) :=
  { h with
    events := fun hn => by simp [hi] at hn
    arithmetic := fun hn => by simp [hi] at hn
    z := fun hn => by simp [hi] at hn
    errors := fun hn => by simp [hi] at hn }

theorem setZ (h : Frame i s u) (hi : writesZOnly i = true) (b : Bool) : Frame i s (u.setZ b) :=
  { h with z := fun _ _ hn => by simp [hi] at hn }

theorem withResult (h : Frame i s u) (hi : writesArithmeticFlags i = true) (r : AluResult) : Frame i s (u.withResult r) :=
  { h with
    arithmetic := fun _ hn => by simp [hi] at hn
    z := fun _ hn => by simp [hi] at hn }

/-! ### PPC, HP, RR, for the instructions that are listed to write them -/

theorem setPpc (h : Frame i s u) (hi : writesPpc i = true) (v : Word) : Frame i s (u.setPpc v) :=
  { h with ppc := fun hn => by simp [hi] at hn }

theorem setHp (h : Frame i s u) (hi : writesHp i = true) (v : Word) : Frame i s (u.setHp v) :=
  { h with hp := fun hn => by simp [hi] at hn }

theorem setRr (h : Frame i s u) (hi : writesRr i = true) (v : Word) : Frame i s (u.setRr v) :=
  { h with rr := fun hn => by simp [hi] at hn }

/-! ### Stacks, memory and ports, for every instruction -/

theorem setP0 (h : Frame i s u) (v : Word) : Frame i s (u.setP0 v) := { h with }
theorem setP01 (h : Frame i s u) (v w : Word) : Frame i s (u.setP01 v w) := { h with }
theorem setP012 (h : Frame i s u) (v w x : Word) : Frame i s (u.setP012 v w x) := { h with }
theorem setR0 (h : Frame i s u) (v : Word) : Frame i s (u.setR0 v) := { h with }
theorem logPort (h : Frame i s u) (c : PortCall) : Frame i s (u.logPort c) := { h with }

theorem setStack (h : Frame i s u) (k : StackId) (st : Stack) : Frame i s (u.setStack k st) := by
  cases k with
  | param => exact { h with }
  | ret => exact { h with }

theorem portAnswer (h : Frame i s u) : Frame i s u.portAnswer.2 := by
  unfold State.portAnswer
  split
  · exact { h with }
  · exact { h with }

/-- A report can change FLAGS and EA only while the oracle's script lasts (R93). -/
theorem edacReport (h : Frame i s u) (a : Word) : Frame i s (u.edacReport a) := by
  cases hu : u.env.edac with
  | nil => rwa [State.edacReport_of_nil u a hu]
  | cons b rest =>
    have hs : s.env.edac ≠ [] := fun hs => by simp [h.edac hs] at hu
    obtain ⟨ee, ec, hf⟩ := State.edacReport_flags u a
    exact {
      toLawful := h.toLawful.edacReport a
      events := by simpa [hf] using h.events
      arithmetic := by simpa [hf] using h.arithmetic
      z := by simpa [hf] using h.z
      errors := fun _ he => absurd he hs
      ppc := by simpa using h.ppc
      hp := by simpa using h.hp
      rr := by simpa using h.rr
      ea := fun _ he => absurd he hs
      edac := fun he => absurd he hs }

theorem memWrite8 (h : Frame i s u) (a : Word) (v : Byte) :
    Frame i s { u with mem := u.mem.write a.toNat v } := { h with toLawful := h.toLawful.memWrite8 a v }

theorem memWrite16 (h : Frame i s u) {a : Word} (ha : u.hasWord a) (v : Word) :
    Frame i s { u with mem := u.mem.writeWord a.toNat v } := { h with toLawful := h.toLawful.memWrite16 ha v }

theorem afterPush (h : Frame i s u) {k : StackId} (hr : u.pushReady k) (v : Word) : Frame i s (u.afterPush k v) := by
  unfold State.afterPush
  by_cases h16 : 16 ≤ (u.stack k).ctr.toNat
  · simp only [h16, if_true]
    exact (h.memWrite16 (hr h16) _).setStack k _
  · simp only [h16, if_false]
    exact h.setStack k _

theorem afterPop (h : Frame i s u) (k : StackId) : Frame i s (u.afterPop k) := by
  unfold State.afterPop
  by_cases h16 : 16 < (u.stack k).ctr.toNat
  · simp only [h16, if_true]
    exact (h.edacReport _).setStack k _
  · simp only [h16, if_false]
    exact { h.setStack k _ with }

/-- The end of POPPS and POPRS writes the register it names (R54); a popped PC has to be even (R29). -/
theorem writeReg (h : Frame i s u) {r : Reg} {v : Word} (hi : i = .popPs r ∨ i = .popRs r)
    (hv : r = .pc → isOdd v = false) : Frame i s (u.writeReg r v) := by
  cases r with
  | pc => exact h.goto (hv rfl)
  | ppc => exact (h.setPpc (by rcases hi with rfl | rfl <;> rfl) v).next2
  | hp => exact (h.setHp (by rcases hi with rfl | rfl <;> rfl) v).next2
  | flags => exact (h.setFlags (by rcases hi with rfl | rfl <;> rfl) _).next2
  | psp => exact (h.setStack .param { u.ps with ptr := v }).next2
  | psc => exact (h.setStack .param { u.ps with ctr := v }).next2
  | rsp => exact (h.setStack .ret { u.rs with ptr := v }).next2
  | rsc => exact (h.setStack .ret { u.rs with ctr := v }).next2
  | ea =>
    have hw : writesEa i = true := by rcases hi with rfl | rfl <;> rfl
    exact Frame.next2 (u := { u with ea := v }) { h with ea := fun hn => by simp [hw] at hn }
  | rr => exact (h.setRr (by rcases hi with rfl | rfl <;> rfl) v).next2

/-- A completed instruction has its frame when its effect has it: the traps keep it (R340, R343, R346). -/
theorem of_complete {x : Run State} (h : complete s x = .next t) (hx : Sat x (Frame i s)) : Frame i s t :=
  next_of_sat h hx ((refl i s).goto rfl) fun _ hr hv => ((refl i s).afterPush hr _).goto hv

theorem of_effect (h : complete s (.ok u) = .next t) (hu : Frame i s u) : Frame i s t := of_complete h (sat_ok hu)

end Frame

/-! ## Every instruction has its frame

One lemma for each shape of instruction. -/

section
variable {i : Instr} {s t : State}

theorem frame_of_replaceP0 {r : AluResult} (hi : writesArithmeticFlags i = true)
    (h : complete s (replaceP0 r s) = .next t) : Frame i s t :=
  .of_complete h <| sat_ok (((Frame.refl i s).withResult hi r).setP0 _).next2

theorem frame_of_flagsOnly {r : AluResult} (hi : writesArithmeticFlags i = true)
    (h : complete s (flagsOnly r s) = .next t) : Frame i s t :=
  .of_complete h <| sat_ok ((Frame.refl i s).withResult hi r).next2

theorem frame_of_popReplace {r : AluResult} (hi : writesArithmeticFlags i = true)
    (h : complete s (popReplace r s) = .next t) : Frame i s t :=
  .of_complete h <| sat_bind <| sat_pop fun _ =>
    sat_ok ((((Frame.refl i s).afterPop .param).withResult hi r).setP0 _).next2

/-- One word pushed, nothing else: DUPL, SOT, IDX, uNLOAD, sNLOAD, PUSHPS, PUSHRS. -/
theorem frame_of_push {k : StackId} {v : Word}
    (h : complete s (do let s1 ← orHalt (push k v s); .ok s1.next2) = .next t) : Frame i s t :=
  .of_complete h <| sat_bind <| sat_orHalt <| sat_push fun hr => sat_ok ((Frame.refl i s).afterPush hr v).next2

theorem setPc_frame {u : State} {a : Word} (h : Frame i s u) : Sat (setPc a u) (Frame i s) :=
  sat_bind <| sat_needEven fun ha => sat_ok (h.goto ha)

theorem callPc_frame {u : State} {back a : Word} (h : Frame i s u) : Sat (callPc back a u) (Frame i s) :=
  sat_bind <| sat_needEven fun ha => sat_bind <| sat_orHalt <| sat_push fun hr => sat_ok ((h.afterPush hr back).goto ha)

theorem returnPc_frame : Sat (returnPc s) (Frame i s) :=
  sat_bind <| sat_needEntries <| sat_bind <| sat_needEven fun ha => sat_bind <| sat_pop fun _ =>
    sat_ok (((Frame.refl i s).afterPop .ret).goto ha)

theorem popInto_frame {k : StackId} {r : Reg} (hi : i = .popPs r ∨ i = .popRs r) : Sat (popInto k r s) (Frame i s) := by
  refine sat_bind <| sat_needEntries <| sat_ite (fun _ => ?_) (fun hr => ?_)
  · exact sat_bind <| sat_needEven fun ha => sat_bind <| sat_pop fun _ =>
      sat_ok (((Frame.refl i s).afterPop k).writeReg hi fun _ => ha)
  · exact sat_bind <| sat_pop fun _ => sat_ok (((Frame.refl i s).afterPop k).writeReg hi fun h => absurd h hr)

end

end Sys2Proof.Machine
end

section
/-! PROOFS. Every instruction has its frame (O16, O19, O20): the loads, stores, inputs, outputs and the IPS instructions,
then all of them. -/

namespace Sys2Proof.Machine

section
variable {i : Instr} {s t : State} {k : Cond} {n : Word}

/-! ## Control transfer -/

/-- The path not met of the calls and jumps through P0, and DEL: one entry popped. -/
theorem pop_next2_frame : Sat (do let (_, s1) ← pop .param s; .ok s1.next2) (Frame i s) :=
  sat_bind <| sat_pop fun _ => sat_ok ((Frame.refl i s).afterPop .param).next2

theorem execCpJmp_frame (h : execCpJmp k s = .next t) : Frame i s t :=
  .of_complete h <| sat_bind <| sat_needEntries <| sat_ite
    (fun _ => sat_bind <| sat_needEven fun ha => sat_bind <| sat_pop fun _ =>
      sat_ok (((Frame.refl i s).afterPop .param).goto ha))
    (fun _ => pop_next2_frame)

theorem execCpJsr_frame (h : execCpJsr k s = .next t) : Frame i s t :=
  .of_complete h <| sat_bind <| sat_needEntries <| sat_ite
    (fun _ => sat_bind <| sat_needEven fun _ => sat_bind <| sat_pop fun _ =>
      callPc_frame ((Frame.refl i s).afterPop .param))
    (fun _ => pop_next2_frame)

theorem execCpBsr_frame (h : execCpBsr k s = .next t) : Frame i s t :=
  .of_complete h <| sat_bind <| sat_needEntries <| sat_ite
    (fun _ => sat_bind <| sat_needEven fun _ => sat_bind <| sat_pop fun _ =>
      callPc_frame ((Frame.refl i s).afterPop .param))
    (fun _ => pop_next2_frame)

/-! ## Loads and inputs -/

/-- The path not met of the 4-byte loads, stores, inputs and outputs. -/
theorem setZ_next4_frame (hi : writesZOnly i = true) : Sat (.ok (s.setZ false).next4 : Run State) (Frame i s) :=
  sat_ok ((Frame.refl i s).setZ hi false).next4

/-- The path not met of the loads and inputs through P0. -/
theorem pop_setZ_next2_frame (hi : writesZOnly i = true) :
    Sat (do let (_, s1) ← pop .param s; .ok (s1.setZ false).next2) (Frame i s) :=
  sat_bind <| sat_pop fun _ => sat_ok (((Frame.refl i s).afterPop .param).setZ hi false).next2

/-- The end of the pushing loads and inputs. -/
theorem push_setZ_next4_frame {u : State} {v : Word} (h : Frame i s u) (hi : writesZOnly i = true) :
    Sat (do let s2 ← orHalt (push .param v u); .ok (s2.setZ true).next4) (Frame i s) :=
  sat_bind <| sat_orHalt <| sat_push fun hr => sat_ok ((h.afterPush hr v).setZ hi true).next4

theorem execCLoad_frame (h : execCLoad n k s = .next t) : Frame (.cLoad n k) s t :=
  .of_complete h <| sat_ite
    (fun _ => sat_bind <| sat_orHalt <| sat_memRead16 fun _ => push_setZ_next4_frame ((Frame.refl _ s).edacReport _) rfl)
    (fun _ => setZ_next4_frame rfl)

theorem execCLoadB_frame (h : execCLoadB n k s = .next t) : Frame (.cLoadB n k) s t :=
  .of_complete h <| sat_ite
    (fun _ => sat_bind <| sat_orHalt <| sat_memRead8 fun _ => push_setZ_next4_frame ((Frame.refl _ s).edacReport _) rfl)
    (fun _ => setZ_next4_frame rfl)

theorem execCNLoad_frame (h : execCNLoad n k s = .next t) : Frame (.cNLoad n k) s t :=
  .of_complete h <| sat_ite (fun _ => push_setZ_next4_frame (.refl _ s) rfl) (fun _ => setZ_next4_frame rfl)

theorem execCIn_frame (h : execCIn n k s = .next t) : Frame (.cIn n k) s t :=
  .of_complete h <| sat_ite
    (fun _ => sat_bind <| sat_orHalt <| sat_portRead16 <|
      push_setZ_next4_frame ((Frame.refl _ s).portAnswer.logPort _) rfl)
    (fun _ => setZ_next4_frame rfl)

theorem execCInB_frame (h : execCInB n k s = .next t) : Frame (.cInB n k) s t :=
  .of_complete h <| sat_ite
    (fun _ => push_setZ_next4_frame ((Frame.refl _ s).portAnswer.logPort _) rfl)
    (fun _ => setZ_next4_frame rfl)

theorem execCpLoad_frame (h : execCpLoad k s = .next t) : Frame (.cpLoad k) s t :=
  .of_complete h <| sat_ite
    (fun _ => sat_bind <| sat_orHalt <| sat_memRead16 fun _ =>
      sat_ok ((((Frame.refl _ s).edacReport _).setP0 _).setZ rfl true).next2)
    (fun _ => pop_setZ_next2_frame rfl)

theorem execCpLoadB_frame (h : execCpLoadB k s = .next t) : Frame (.cpLoadB k) s t :=
  .of_complete h <| sat_ite
    (fun _ => sat_bind <| sat_orHalt <| sat_memRead8 fun _ =>
      sat_ok ((((Frame.refl _ s).edacReport _).setP0 _).setZ rfl true).next2)
    (fun _ => pop_setZ_next2_frame rfl)

theorem execCpIn_frame (h : execCpIn k s = .next t) : Frame (.cpIn k) s t :=
  .of_complete h <| sat_ite
    (fun _ => sat_bind <| sat_orHalt <| sat_portRead16 <|
      sat_ok ((((Frame.refl _ s).portAnswer.logPort _).setP0 _).setZ rfl true).next2)
    (fun _ => pop_setZ_next2_frame rfl)

theorem execCpInB_frame (h : execCpInB k s = .next t) : Frame (.cpInB k) s t :=
  .of_complete h <| sat_ite
    (fun _ => sat_ok ((((Frame.refl _ s).portAnswer.logPort _).setP0 _).setZ rfl true).next2)
    (fun _ => pop_setZ_next2_frame rfl)

theorem execSLoad_frame {abc : BitVec 12} (h : execSLoad abc s = .next t) : Frame i s t :=
  .of_complete h <| sat_bind <| sat_orHalt <| sat_memRead16 fun _ =>
    sat_ok (((Frame.refl i s).edacReport _).setP0 _).next2

/-! ## Stores and outputs -/

/-- The end of the stores and outputs to an address of the instruction. -/
theorem pop_setZ_next4_frame {u : State} (h : Frame i s u) (hi : writesZOnly i = true) :
    Sat (do let (_, s2) ← pop .param u; .ok (s2.setZ true).next4) (Frame i s) :=
  sat_bind <| sat_pop fun _ => sat_ok ((h.afterPop .param).setZ hi true).next4

/-- The end of cpSTORE and cpSTOREB. -/
theorem pop_pop_setZ_next2_frame {u : State} {b : Bool} (h : Frame i s u) (hi : writesZOnly i = true) :
    Sat (do let (_, s2) ← pop .param u; let (_, s3) ← pop .param s2; .ok (s3.setZ b).next2) (Frame i s) :=
  sat_bind <| sat_pop fun _ => sat_bind <| sat_pop fun _ =>
    sat_ok (((h.afterPop .param).afterPop .param).setZ hi b).next2

/-- The end of cpOUT and cpOUTB. -/
theorem pop_pop_next2_frame {u : State} (h : Frame i s u) :
    Sat (do let (_, s2) ← pop .param u; let (_, s3) ← pop .param s2; .ok s3.next2) (Frame i s) :=
  sat_bind <| sat_pop fun _ => sat_bind <| sat_pop fun _ => sat_ok ((h.afterPop .param).afterPop .param).next2

theorem execCStore_frame (h : execCStore n k s = .next t) : Frame (.cStore n k) s t :=
  .of_complete h <| sat_ite
    (fun _ => sat_bind <| sat_needEntries <| sat_bind <| sat_orHalt <| sat_memWrite16 fun ha =>
      pop_setZ_next4_frame ((Frame.refl _ s).memWrite16 ha _) rfl)
    (fun _ => setZ_next4_frame rfl)

theorem execCStoreB_frame (h : execCStoreB n k s = .next t) : Frame (.cStoreB n k) s t :=
  .of_complete h <| sat_ite
    (fun _ => sat_bind <| sat_needEntries <| sat_bind <| sat_orHalt <| sat_memWrite8 fun _ =>
      pop_setZ_next4_frame ((Frame.refl _ s).memWrite8 _ _) rfl)
    (fun _ => setZ_next4_frame rfl)

theorem execCOut_frame (h : execCOut n k s = .next t) : Frame (.cOut n k) s t :=
  .of_complete h <| sat_ite
    (fun _ => sat_bind <| sat_needEntries <| sat_bind <| sat_orHalt <| sat_portWrite16 <|
      pop_setZ_next4_frame ((Frame.refl _ s).logPort _) rfl)
    (fun _ => setZ_next4_frame rfl)

theorem execCOutB_frame (h : execCOutB n k s = .next t) : Frame (.cOutB n k) s t :=
  .of_complete h <| sat_ite
    (fun _ => sat_bind <| sat_needEntries <| pop_setZ_next4_frame ((Frame.refl _ s).logPort _) rfl)
    (fun _ => setZ_next4_frame rfl)

theorem execCpStore_frame (h : execCpStore k s = .next t) : Frame (.cpStore k) s t :=
  .of_complete h <| sat_bind <| sat_needEntries <| sat_ite
    (fun _ => sat_bind <| sat_orHalt <| sat_memWrite16 fun ha =>
      pop_pop_setZ_next2_frame ((Frame.refl _ s).memWrite16 ha _) rfl)
    (fun _ => sat_bind <| sat_ok <| pop_pop_setZ_next2_frame (.refl _ s) rfl)

theorem execCpStoreB_frame (h : execCpStoreB k s = .next t) : Frame (.cpStoreB k) s t :=
  .of_complete h <| sat_bind <| sat_needEntries <| sat_ite
    (fun _ => sat_bind <| sat_orHalt <| sat_memWrite8 fun _ =>
      pop_pop_setZ_next2_frame ((Frame.refl _ s).memWrite8 _ _) rfl)
    (fun _ => sat_bind <| sat_ok <| pop_pop_setZ_next2_frame (.refl _ s) rfl)

theorem execCpOut_frame (h : execCpOut k s = .next t) : Frame i s t :=
  .of_complete h <| sat_bind <| sat_needEntries <| sat_ite
    (fun _ => sat_bind <| sat_orHalt <| sat_portWrite16 <| pop_pop_next2_frame ((Frame.refl i s).logPort _))
    (fun _ => sat_bind <| sat_ok <| pop_pop_next2_frame (.refl i s))

theorem execCpOutB_frame (h : execCpOutB k s = .next t) : Frame i s t := by
  refine .of_complete h <| sat_bind <| sat_needEntries <| pop_pop_next2_frame ?_
  split
  · exact (Frame.refl i s).logPort _
  · exact .refl i s

theorem execSStore_frame {abc : BitVec 12} (h : execSStore abc s = .next t) : Frame i s t :=
  .of_complete h <| sat_bind <| sat_orHalt <| sat_memWrite16 fun ha => sat_ok ((Frame.refl i s).memWrite16 ha _).next2

/-! ## Between the stacks, single flags -/

theorem execPtor_frame (h : execPtor s = .next t) : Frame i s t :=
  .of_complete h <| sat_bind <| sat_pop fun _ => sat_bind <| sat_orHalt <| sat_push fun hr =>
    sat_ok (((Frame.refl i s).afterPop .param).afterPush hr _).next2

theorem execRtop_frame (h : execRtop s = .next t) : Frame i s t :=
  .of_complete h <| sat_bind <| sat_pop fun _ => sat_bind <| sat_orHalt <| sat_push fun hr =>
    sat_ok (((Frame.refl i s).afterPop .ret).afterPush hr _).next2

theorem execSet_frame {m : FlagSel} (h : execSet m s = .next t) : Frame (.set m) s t := by
  unfold execSet at h
  split at h
  · cases h
  · exact .of_effect h ((Frame.refl _ s).setFlags rfl _).next2

/-! ## IPS support and system -/

theorem execDfx_frame (h : execDfx s = .next t) : Frame .dfx s t :=
  .of_complete h <| sat_bind <| sat_orHalt <| sat_push fun hr =>
    sat_ok (((Frame.refl _ s).afterPush hr _).setPpc rfl _).next2

theorem execTwoBlit_frame (h : execTwoBlit s = .next t) : Frame .twoBlit s t :=
  .of_complete h <| sat_bind <| sat_orHalt <| sat_memRead16 fun _ => sat_bind <| sat_orHalt <| sat_push fun hr =>
    sat_ok ((((Frame.refl _ s).edacReport _).afterPush hr _).setPpc rfl _).next2

theorem execEmulate_frame (h : execEmulate k s = .next t) : Frame (.emulate k) s t :=
  .of_complete h <| sat_ite (fun _ => sat_error) fun _ => sat_ite
    (fun _ => sat_bind <| sat_orHalt <| sat_memRead16 fun _ => sat_bind <| sat_orHalt <| sat_memRead16 fun _ =>
      setPc_frame (((((Frame.refl _ s).edacReport _).edacReport _).setPpc rfl _).setHp rfl _))
    (fun _ => sat_ok (Frame.refl _ s).next2)

theorem execExecute_frame (h : execExecute k s = .next t) : Frame (.execute k) s t :=
  .of_complete h <| sat_ite
    (fun _ => sat_bind <| sat_orHalt <| sat_memRead16 fun _ =>
      setPc_frame (((Frame.refl _ s).edacReport _).setHp rfl _))
    (fun _ => sat_ok (Frame.refl _ s).next2)

theorem execJppc_frame (h : execJppc s = .next t) : Frame .jppc s t :=
  .of_complete h <| sat_bind <| sat_orHalt <| sat_memRead16 fun _ =>
    sat_ok (((Frame.refl _ s).edacReport _).setPpc rfl _).next2

theorem execPrepare_frame (h : execPrepare k s = .next t) : Frame (.prepare k) s t :=
  .of_complete h <| sat_ite
    (fun _ => sat_bind <| sat_orHalt <| sat_memRead16 fun _ =>
      sat_ok (((((Frame.refl _ s).edacReport _).setHp rfl _).setPpc rfl _).setZ rfl true).next2)
    (fun _ => sat_ok ((Frame.refl _ s).setZ rfl false).next2)

theorem execRefresh_frame (h : execRefresh k s = .next t) : Frame (.refresh k) s t :=
  .of_complete h <| sat_ite
    (fun _ => sat_bind <| sat_orHalt <| sat_memRead16 fun _ => sat_bind <| sat_orHalt <| sat_memWrite16 fun ha =>
      sat_ok ((((Frame.refl _ s).edacReport _).memWrite16 ha _).setRr rfl _).next2)
    (fun _ => sat_ok (Frame.refl _ s).next2)

end

/-! ## All of them -/

/-- Whatever the instruction, a next state is in its frame. -/
theorem exec_frame (i : Instr) {s t : State} (h : exec i s = .next t) : Frame i s t := by
  cases i
  case addU | adcU | subU | sbcU | rsubU | rsbcU | andU | orU | eorU | maskU => exact frame_of_replaceP0 rfl h
  case addS | adcS | subS | sbcS | rsubS | rsbcS | andS | orS | eorS => exact frame_of_replaceP0 rfl h
  case maskP | cpl | neg | lsl | lsr | rol | ror | asr => exact frame_of_replaceP0 rfl h
  case rcmpU | cmpU | tstU | rcmpS | cmpS | tstS | cmpP | rcmpP | tstP => exact frame_of_flagsOnly rfl h
  case addP | adcP | rsubP | rsbcP | subP | sbcP | andP | orP | eorP => exact frame_of_popReplace rfl h
  case uNLoad | sNLoad | dupl | sot | idx | pushPs | pushRs => exact frame_of_push h
  case popPs r => exact .of_complete h <| popInto_frame (.inl rfl)
  case popRs r => exact .of_complete h <| popInto_frame (.inr rfl)
  case nop => exact .of_effect h (Frame.refl _ s).next2
  case xb | flag => exact .of_effect h ((Frame.refl _ s).setP0 _).next2
  case swap => exact .of_effect h ((Frame.refl _ s).setP01 _ _).next2
  case rtu | rtd => exact .of_effect h ((Frame.refl _ s).setP012 _ _ _).next2
  case xrp => exact .of_effect h (((Frame.refl _ s).setP0 _).setR0 _).next2
  case del => exact .of_complete h pop_next2_frame
  case ptor => exact execPtor_frame h
  case rtop => exact execRtop_frame h
  case set => exact execSet_frame h
  case clear => exact .of_effect h ((Frame.refl _ s).setFlags rfl _).next2
  case sJmp | sBr => exact .of_complete h <| setPc_frame (.refl _ s)
  case sJsr | sBsr => exact .of_complete h <| callPc_frame (.refl _ s)
  case cBr =>
    exact .of_complete h <| sat_ite (fun _ => setPc_frame (.refl _ s)) (fun _ => sat_ok (Frame.refl _ s).next2)
  case cJmp =>
    exact .of_complete h <| sat_ite (fun _ => setPc_frame (.refl _ s)) (fun _ => sat_ok (Frame.refl _ s).next4)
  case cJsr =>
    exact .of_complete h <| sat_ite (fun _ => callPc_frame (.refl _ s)) (fun _ => sat_ok (Frame.refl _ s).next4)
  case cRts => exact .of_complete h <| sat_ite (fun _ => returnPc_frame) (fun _ => sat_ok (Frame.refl _ s).next2)
  case cpJmp => exact execCpJmp_frame h
  case cpJsr => exact execCpJsr_frame h
  case cpBsr => exact execCpBsr_frame h
  case cNLoad => exact execCNLoad_frame h
  case cLoad => exact execCLoad_frame h
  case cLoadB => exact execCLoadB_frame h
  case cpLoad => exact execCpLoad_frame h
  case cpLoadB => exact execCpLoadB_frame h
  case sLoad => exact execSLoad_frame h
  case cStore => exact execCStore_frame h
  case cStoreB => exact execCStoreB_frame h
  case cpStore => exact execCpStore_frame h
  case cpStoreB => exact execCpStoreB_frame h
  case sStore => exact execSStore_frame h
  case cIn => exact execCIn_frame h
  case cInB => exact execCInB_frame h
  case cpIn => exact execCpIn_frame h
  case cpInB => exact execCpInB_frame h
  case cOut => exact execCOut_frame h
  case cOutB => exact execCOutB_frame h
  case cpOut => exact execCpOut_frame h
  case cpOutB => exact execCpOutB_frame h
  case emulate => exact execEmulate_frame h
  case execute => exact execExecute_frame h
  case prepare => exact execPrepare_frame h
  case refresh => exact execRefresh_frame h
  case dfx => exact execDfx_frame h
  case twoBlit => exact execTwoBlit_frame h
  case jppc => exact execJppc_frame h

/-! ## The boundary and the fetch -/

/-- The state that a boundary leads to satisfies `P`. -/
def AtBoundary.All (P : State → Prop) : AtBoundary → Prop
  | .resetTaken u => P u
  | .proceed u => P u

theorem sat_map_proceed {x : Except Halt State} {P : State → Prop} (h : Sat x P) :
    Sat (x.map .proceed) (AtBoundary.All P) := by
  intro b hb
  cases x with
  | error e => cases hb
  | ok u => cases hb; exact h u rfl

theorem interrupt_lawful {s u : State} (h : Lawful s u) : Sat (interrupt u) (Lawful s) :=
  sat_ite (fun _ => sat_bind <| sat_push fun hr => sat_ok (((h.setFlags _).afterPush hr _).goto rfl))
    fun _ => sat_ite (fun _ => sat_ok (h.setFlags _)) (fun _ => sat_ok h)

theorem resetEntry_lawful {s u : State} (h : Lawful s u) : Lawful s (resetEntry u) :=
  { h with pc := fun _ => (by decide : isOdd 0x0000#16 = false) }

theorem boundary_lawful (s : State) : Sat (boundary s) (AtBoundary.All (Lawful s)) := by
  unfold boundary
  split
  · exact sat_ok (.refl s)
  · next b rest _ =>
    have hevent : Lawful s (if b.ext then externalEvent (s.setBoundary rest) else s.setBoundary rest) := by
      split
      · exact ((Lawful.refl s).setBoundary rest).setFlags _
      · exact (Lawful.refl s).setBoundary rest
    exact sat_ite (fun _ => sat_ok (resetEntry_lawful ((Lawful.refl s).setBoundary _)))
      fun _ => sat_ite (fun _ => sat_map_proceed (interrupt_lawful hevent)) (fun _ => sat_ok hevent)

theorem fetchBytes_lawful (s : State) : Sat (fetchBytes s) fun p => Lawful s p.2 :=
  sat_ite (fun _ => sat_error) fun _ =>
    sat_bind <| sat_memRead8 fun _ => sat_bind <| sat_memRead8 fun _ => sat_ite
      (fun _ => sat_bind <| sat_memRead16 fun _ =>
        sat_ok ((((Lawful.refl s).edacReport _).edacReport _).edacReport _))
      (fun _ => sat_ok (((Lawful.refl s).edacReport _).edacReport _))

theorem fetch_lawful (s : State) : Sat (fetch s) fun p => Lawful s p.2 := by
  refine sat_bind fun ⟨bytes, s1⟩ hq => ?_
  dsimp only
  split
  · exact sat_ok (fetchBytes_lawful s _ hq)
  · exact sat_error

/-- Fetch and run one instruction: lawful, by the fetch and the instruction's frame. -/
theorem runInstr_lawful {s t : State} (h : runInstr s = .next t) : Lawful s t := by
  unfold runInstr at h
  split at h
  · next i s1 hf => exact (fetch_lawful s _ hf).trans (exec_frame i h).toLawful
  · exact absurd h (outcome_ne_next _ t)

theorem step_lawful {s t : State} (h : step s = .next t) : Lawful s t := by
  unfold step at h
  split at h
  · next u hb => cases h; exact boundary_lawful s _ hb
  · next u hb => exact (show Lawful s u from boundary_lawful s _ hb).trans (runInstr_lawful h)
  · exact absurd h (outcome_ne_next _ t)

/-! ## The obligations -/

/-- Settles O16: the boundary, the fetch and the instruction are each lawful. -/
theorem stepKeepsInvariant : Obligations.StepKeepsInvariant :=
  fun _ _ hs h => (step_lawful h).inv hs

/-- Settles O19: the flags of the frame. -/
theorem flagsWrittenOnlyAsListed : Obligations.FlagsWrittenOnlyAsListed := by
  intro i s t h hn
  have hf := exec_frame i h
  obtain ⟨he, hi, hie⟩ := hf.events hn
  exact ⟨he, hi, hie, hf.arithmetic hn, hf.z hn, hf.errors hn⟩

/-- Settles O20: the support registers of the frame. -/
theorem supportRegistersWrittenOnlyAsListed : Obligations.SupportRegistersWrittenOnlyAsListed := by
  intro i s t h
  have hf := exec_frame i h
  refine ⟨fun h1 h2 h3 h4 h5 h6 h7 => hf.ppc ?_, fun h1 h2 h3 h4 h5 => hf.hp ?_, fun h1 h2 h3 => hf.rr ?_,
    fun he h1 h2 => hf.ea ?_ he⟩
  · unfold writesPpc; split <;> simp_all
  · unfold writesHp; split <;> simp_all
  · unfold writesRr; split <;> simp_all
  · unfold writesEa; split <;> simp_all

end Sys2Proof.Machine
end

section
/-! PROOFS. What single instructions lead to (O36, O37, O38, O43, O45 to O48): each operation is run with its rule of
`Laws/Ops.lean`, and the next state is compared with the one the statement gives. -/

namespace Sys2Proof.Machine

/-! ## Reading the result of a run -/

section
variable {i : Instr} {s t u : State}

/-- A next state reached from one that still has PC at the instruction. -/
theorem next2_eq (h : u.pc = s.pc) : u.next2 = { u with pc := s.pc + 2#16 } := by rw [← h]; rfl

theorem next4_eq (h : u.pc = s.pc) : u.next4 = { u with pc := s.pc + 4#16 } := by rw [← h]; rfl

/-- An instruction that stores nothing completes when its effect is reached. -/
theorem completes_nowhere {x : Run State} (he : exec i s = complete s x) (hx : x = .ok t) (hm : t.mem = s.mem) :
    Completes i s t nowhere := ⟨by rw [he, hx]; rfl, fun a _ => by rw [hm]⟩

theorem operandU_eq (n : Byte) : operandU n = BitVec.ofNat 16 n.toNat := (BitVec.ofNat_toNat 16 n).symm

/-! ## Pushes -/

/-- The instructions that push one word and do nothing else (R23, R25). -/
theorem completes_push {k : StackId} {v w : Word}
    (he : exec i s = complete s (do let s1 ← orHalt (push k v s); .ok s1.next2)) (hv : v = w)
    (hm : s.mem.wf = true) (hr : s.pushReady k) :
    Completes i s { s.afterPush k w with pc := s.pc + 2#16 } (s.spillsTo k) := by
  subst hv
  refine ⟨?_, fun a ha => afterPush_read k v a hm ha⟩
  rw [he, push_of_ready v hr]
  exact congrArg Host.Outcome.next (next2_eq (afterPush_pc s k v))

end

/-- Settles O36: each is a push of its word. -/
theorem pushingInstructions : Obligations.PushingInstructions := fun _ n hm hr =>
  ⟨completes_push rfl rfl hm hr, completes_push rfl rfl hm hr, completes_push rfl rfl hm hr,
    completes_push rfl (operandU_eq n) hm hr, completes_push rfl rfl hm hr⟩

/-- A concatenation as a number: the upper part counts in units of the lower one. -/
theorem toNat_append_eq {m n : Nat} (x : BitVec m) (y : BitVec n) : (x ++ y).toNat = x.toNat * 2 ^ n + y.toNat := by
  rw [BitVec.toNat_append, ← Nat.shiftLeft_add_eq_or_of_lt y.isLt, Nat.shiftLeft_eq]

/-- FLAGS as a number, bit by bit (R53). -/
theorem Flags.toWord_eq (x : BitVec 2) (f : Flags) :
    f.toWord x = BitVec.ofNat 16 (f.ec.toNat * 1024 + x.toNat * 256 + f.ee.toNat * 128 + f.ie.toNat * 64
      + f.i.toNat * 32 + f.e.toNat * 16 + f.o.toNat * 8 + f.s.toNat * 4 + f.z.toNat * 2 + f.c.toNat) := by
  have hc (b : Bool) : b.toNat < 2 := Bool.toNat_lt b
  have h : (f.toWord x).toNat = f.ec.toNat * 1024 + x.toNat * 256 + f.ee.toNat * 128 + f.ie.toNat * 64
      + f.i.toNat * 32 + f.e.toNat * 16 + f.o.toNat * 8 + f.s.toNat * 4 + f.z.toNat * 2 + f.c.toNat := by
    simp only [Flags.toWord, toNat_append_eq, BitVec.toNat_ofBool]
    omega
  rw [← h, BitVec.ofNat_toNat, BitVec.setWidth_eq]

/-- Settles O37: the word listed for a register is the word read from it. -/
theorem registerPushes : Obligations.RegisterPushes := by
  intro s r v hm hv
  have hread : s.readReg r = v := by
    simp only [List.mem_cons, Prod.mk.injEq, List.not_mem_nil, or_false] at hv
    rcases hv with ⟨rfl, rfl⟩ | ⟨rfl, rfl⟩ | ⟨rfl, rfl⟩ | ⟨rfl, rfl⟩ | ⟨rfl, rfl⟩ | ⟨rfl, rfl⟩ | ⟨rfl, rfl⟩
      | ⟨rfl, rfl⟩ | ⟨rfl, rfl⟩ | ⟨rfl, rfl⟩
    exacts [rfl, rfl, rfl, rfl, rfl, rfl, rfl, rfl, rfl, Flags.toWord_eq _ _]
  exact ⟨fun hr => completes_push rfl hread hm hr, fun hr => completes_push rfl hread hm hr⟩

/-! ## Register pops -/

section
variable {i : Instr} {s t : State}

/-- A pop that can be made counts an entry. -/
theorem needEntries_one_of_popReady {k : StackId} (hr : s.popReady k) : needEntries k 1 s = .ok () :=
  needEntries_of_le (Nat.one_le_iff_ne_zero.2 fun h0 => hr.1 (BitVec.eq_of_toNat_eq h0))

theorem popInto_of_ready {k : StackId} {r : Reg} (hr : s.popReady k)
    (hv : r = .pc → isOdd (s.stack k).regs.e0 = false) :
    popInto k r s = .ok ((s.afterPop k).writeReg r (s.stack k).regs.e0) := by
  unfold popInto
  rw [needEntries_one_of_popReady hr, pop_of_ready hr]
  by_cases hpc : r = .pc
  · simp [hpc, needEven_of_even (hv hpc)]
  · simp [hpc]

theorem completes_popInto {k : StackId} {r : Reg} (he : exec i s = complete s (popInto k r s)) (hr : s.popReady k)
    (hv : r = .pc → isOdd (s.stack k).regs.e0 = false) (ht : (s.afterPop k).writeReg r (s.stack k).regs.e0 = t) :
    Completes i s t nowhere :=
  completes_nowhere he ((popInto_of_ready hr hv).trans (congrArg _ ht)) (by simp [← ht])

end

/-- Settles O38: the pop, then the write of each register. -/
theorem registerPops : Obligations.RegisterPops := by
  intro s k hr
  have hpc := afterPop_pc s k
  intro i v t
  have he (r : Reg) : exec (i r) s = complete s (popInto k r s) := by cases k <;> rfl
  exact ⟨completes_popInto (he .ppc) hr nofun (next2_eq hpc), completes_popInto (he .hp) hr nofun (next2_eq hpc),
    completes_popInto (he .psp) hr nofun (next2_eq hpc), completes_popInto (he .psc) hr nofun (next2_eq hpc),
    completes_popInto (he .rsp) hr nofun (next2_eq hpc), completes_popInto (he .rsc) hr nofun (next2_eq hpc),
    completes_popInto (he .ea) hr nofun (next2_eq hpc), completes_popInto (he .rr) hr nofun (next2_eq hpc),
    completes_popInto (he .flags) hr nofun (next2_eq hpc),
    fun hv => completes_popInto (he .pc) hr (fun _ => hv) rfl⟩

end Sys2Proof.Machine
end

section
/-! PROOFS. The loads and stores (O43, O45 to O48). -/

namespace Sys2Proof.Machine

section
variable {i : Instr} {s t u : State}

/-! ## Z and PC, the end of most of them -/

theorem setZ_next2_eq (h : u.pc = s.pc) (b : Bool) :
    (u.setZ b).next2 = { u with pc := s.pc + 2#16, flags := { u.flags with z := b } } := next2_eq (u := u.setZ b) h

theorem setZ_next4_eq (h : u.pc = s.pc) (b : Bool) :
    (u.setZ b).next4 = { u with pc := s.pc + 4#16, flags := { u.flags with z := b } } := next4_eq (u := u.setZ b) h

/-! ## Loads -/

/-- The end of the pushing loads, from the state `u` after the word was read. -/
theorem completes_push_setZ {v w : Word}
    (he : exec i s = complete s (do let s2 ← orHalt (push .param v u); .ok (s2.setZ true).next4)) (hv : v = w)
    (hpc : u.pc = s.pc) (hmem : u.mem = s.mem) (hps : u.ps = s.ps) (hcfg : u.cfg = s.cfg) (hm : s.mem.wf = true)
    (hr : s.pushReady .param) :
    Completes i s { u.afterPush .param w with pc := s.pc + 4#16, flags := { u.flags with z := true } }
      (s.spillsTo .param) := by
  subst hv
  have hru : u.pushReady .param := by simpa [State.pushReady, State.hasWord, hps, hcfg] using hr
  refine ⟨?_, fun a ha => ?_⟩
  · rw [he, push_of_ready v hru, ← afterPush_flags u .param v]
    exact congrArg Host.Outcome.next (setZ_next4_eq ((afterPush_pc u .param v).trans hpc) true)
  · have hau : ¬ u.spillsTo .param a := by simpa [State.spillsTo, hps] using ha
    exact (afterPush_read .param v a (hmem ▸ hm) hau).trans (by rw [hmem])

/-- The end of the loads that replace P0, from the state after the report of the read. -/
theorem completes_setP0_setZ {a v w : Word}
    (he : exec i s = complete s (.ok (((s.edacReport a).setP0 v).setZ true).next2)) (hv : v = w) :
    Completes i s { s.edacReport a with
      pc := s.pc + 2#16, flags := { (s.edacReport a).flags with z := true }
      ps := { s.ps with regs := { s.ps.regs with e0 := w } } } nowhere := by
  subst hv
  refine completes_nowhere he (congrArg _ ?_) (State.edacReport_mem s a)
  rw [← State.edacReport_ps s a]
  exact setZ_next2_eq (u := (s.edacReport a).setP0 v) (State.edacReport_pc s a) true

end

/-- Settles O43: the word is read, then pushed. -/
theorem pushingLoads : Obligations.PushingLoads := by
  intro s n k hm hk hr
  refine ⟨fun hn => ?_, fun hn => ?_, ?_⟩
  · refine completes_push_setZ ?_ rfl (by simp) (by simp) (by simp) (by simp) hm hr
    show execCLoad n k s = _
    simp [execCLoad, hk, memRead16_of_hasWord hn]
  · refine completes_push_setZ ?_ (operandU_eq _) (by simp) (by simp) (by simp) (by simp) hm hr
    show execCLoadB n k s = _
    simp [execCLoadB, hk, memRead8_of_hasByte hn]
  · refine completes_push_setZ ?_ rfl rfl rfl rfl rfl hm hr
    show execCNLoad n k s = _
    simp [execCNLoad, hk]

theorem shortAddr_toNat (abc : BitVec 12) : (abc.setWidth 16).toNat = abc.toNat :=
  BitVec.toNat_setWidth_of_le (by decide)

/-- Settles O45: the word is read, then put into P0. -/
theorem replacingLoads : Obligations.ReplacingLoads := by
  intro s k abc
  refine ⟨fun hk ha => ?_, fun hk ha => ?_, fun ha => ?_⟩
  · refine completes_setP0_setZ ?_ rfl
    show execCpLoad k s = _
    simp [execCpLoad, hk, memRead16_of_hasWord ha]
  · refine completes_setP0_setZ ?_ (operandU_eq _)
    show execCpLoadB k s = _
    simp [execCpLoadB, hk, memRead8_of_hasByte ha]
  · refine completes_nowhere (x := do
      let (v, s1) ← orHalt (memRead16 (abc.setWidth 16) s)
      .ok (s1.setP0 v).next2) rfl ?_ (State.edacReport_mem s _)
    rw [memRead16_of_hasWord ha, shortAddr_toNat, ← State.edacReport_ps s (abc.setWidth 16)]
    exact congrArg Except.ok (next2_eq (u := (s.edacReport _).setP0 _) (State.edacReport_pc s _))

/-! ## The paths that pop -/

section
variable {i : Instr} {s t u : State}

/-- The path not met of the loads and inputs through P0. -/
theorem completes_pop_setZ_next2
    (he : exec i s = complete s (do let (_, s1) ← pop .param s; .ok (s1.setZ false).next2)) (hr : s.popReady .param) :
    Completes i s { s.afterPop .param with
      pc := s.pc + 2#16, flags := { (s.afterPop .param).flags with z := false } } nowhere := by
  refine completes_nowhere he ?_ (afterPop_mem s .param)
  rw [pop_of_ready hr]
  exact congrArg Except.ok (setZ_next2_eq (afterPop_pc s .param) false)

end

/-- Settles O46: the four paths not met are one. -/
theorem stackFormsNotMetPop : Obligations.StackFormsNotMetPop := by
  intro s k hk hr u i hi
  refine completes_pop_setZ_next2 ?_ hr
  simp only [List.mem_cons, List.not_mem_nil, or_false] at hi
  rcases hi with rfl | rfl | rfl | rfl
  · simp [exec, execCpLoad, hk]
  · simp [exec, execCpLoadB, hk]
  · simp [exec, execCpIn, hk]
  · simp [exec, execCpInB, hk]

/-! ## Stores -/

section
variable {i : Instr} {s t u : State}

/-- The end of cSTORE and cSTOREB, from the state `u` after the store. -/
theorem completes_pop_setZ_next4 {stored : Nat → Prop}
    (he : exec i s = complete s (do let (_, s2) ← pop .param u; .ok (s2.setZ true).next4)) (hr : u.popReady .param)
    (hpc : u.pc = s.pc) (hm : ∀ a, ¬ stored a → u.mem.read a = s.mem.read a) :
    Completes i s { u.afterPop .param with
      pc := s.pc + 4#16, flags := { (u.afterPop .param).flags with z := true } } stored := by
  refine ⟨?_, fun a ha => ?_⟩
  · rw [he, pop_of_ready hr]
    exact congrArg Host.Outcome.next (setZ_next4_eq ((afterPop_pc u .param).trans hpc) true)
  · exact (congrArg (Memory.read · a) (afterPop_mem u .param)).trans (hm a ha)

/-- The end of cpSTORE and cpSTOREB, from the state `u` after the store, or before it where there is none. -/
theorem completes_pop_pop_setZ {b : Bool} {stored : Nat → Prop}
    (he : exec i s = complete s
      (do let (_, s2) ← pop .param u; let (_, s3) ← pop .param s2; .ok (s3.setZ b).next2))
    (hr : u.popTwiceReady .param) (hpc : u.pc = s.pc) (hm : ∀ a, ¬ stored a → u.mem.read a = s.mem.read a) :
    Completes i s { (u.afterPop .param).afterPop .param with
      pc := s.pc + 2#16, flags := { ((u.afterPop .param).afterPop .param).flags with z := b } } stored := by
  obtain ⟨h1, h2⟩ := popReady_of_twice hr
  refine ⟨?_, fun a ha => ?_⟩
  · rw [he, pop_of_ready h1, bind_ok]
    dsimp only
    rw [pop_of_ready h2]
    exact congrArg Host.Outcome.next (setZ_next2_eq (by simp [hpc]) b)
  · have hmem : ((u.afterPop .param).afterPop .param).mem = u.mem := by simp
    exact (congrArg (Memory.read · a) hmem).trans (hm a ha)

/-- A byte written leaves every other byte (R74). -/
theorem read_write_outside (hm : s.mem.wf = true) (a : Word) (v : Byte) (b : Nat) (hb : ¬ byteAt a b) :
    (s.mem.write a.toNat v).read b = s.mem.read b := by rw [Memory.read_write _ _ _ hm, if_neg hb]

/-- A word written leaves every other byte (R75). -/
theorem read_writeWord_outside (hm : s.mem.wf = true) (a v : Word) (b : Nat) (hb : ¬ wordAt a b) :
    (s.mem.writeWord a.toNat v).read b = s.mem.read b :=
  Memory.read_writeWord_other v hm a.isLt (fun h => hb (.inl h)) (fun h => hb (.inr h))

end

/-- Settles O47: the store, then the pop, which sSTORE leaves out. -/
theorem absoluteStores : Obligations.AbsoluteStores := by
  intro s n k abc hm
  refine ⟨fun hk hr hn => ?_, fun hk hr hn => ?_, fun ha => ⟨?_, ?_⟩⟩
  · refine completes_pop_setZ_next4 ?_ hr rfl (read_writeWord_outside hm n _)
    show execCStore n k s = _
    simp [execCStore, hk, needEntries_one_of_popReady hr, memWrite16_of_hasWord _ hn]
  · refine completes_pop_setZ_next4 ?_ hr rfl (read_write_outside hm n _)
    show execCStoreB n k s = _
    simp [execCStoreB, hk, needEntries_one_of_popReady hr, memWrite8_of_hasByte _ hn, lowByte]
  · have he : exec (.sStore abc) s = complete s (do
        let s1 ← orHalt (memWrite16 (abc.setWidth 16) s.p0 s)
        .ok s1.next2) := rfl
    rw [he, memWrite16_of_hasWord _ ha, shortAddr_toNat]
    rfl
  · have hout := read_writeWord_outside hm (abc.setWidth 16) s.p0
    rwa [shortAddr_toNat] at hout

/-- Settles O48: the store where the condition is met, then two pops. -/
theorem stackStores : Obligations.StackStores := by
  intro s k hm hr
  have hneed : needEntries .param 2 s = .ok () := needEntries_of_le hr.1
  refine ⟨fun hk ha => ?_, fun hk ha => ?_, fun hk => ⟨?_, ?_⟩⟩
  · refine completes_pop_pop_setZ ?_ hr rfl (read_writeWord_outside hm s.p0 _)
    show execCpStore k s = _
    simp [execCpStore, hk, hneed, memWrite16_of_hasWord _ ha]
  · refine completes_pop_pop_setZ ?_ hr rfl (read_write_outside hm s.p0 _)
    show execCpStoreB k s = _
    simp [execCpStoreB, hk, hneed, memWrite8_of_hasByte _ ha, lowByte]
  · refine completes_pop_pop_setZ ?_ hr rfl (fun _ _ => rfl)
    show execCpStore k s = _
    simp [execCpStore, hk, hneed]
  · refine completes_pop_pop_setZ ?_ hr rfl (fun _ _ => rfl)
    show execCpStoreB k s = _
    simp [execCpStoreB, hk, hneed]

end Sys2Proof.Machine
end

section
/-! PROOFS. An odd computed target (O15): the test of R29 comes after the underflow test and before every effect. -/

namespace Sys2Proof.Machine

section
variable {i : Instr} {s u : State} {a : Word} {k : Cond}

/-- An instruction that raises PcOdd leaves the state as it was, with PC at the vector (R343, R346). -/
theorem completes_pcOdd {x : Run State} (he : exec i s = complete s x) (hx : x = .error (.trap .pcOdd)) :
    Completes i s { s with pc := 0x000C#16 } nowhere := ⟨by rw [he, hx]; rfl, fun _ _ => rfl⟩

/-! ## The loads of PC -/

theorem setPc_odd (ha : isOdd a = true) : setPc a u = .error (.trap .pcOdd) := by simp [setPc, needEven_of_odd ha]

theorem callPc_odd {back : Word} (ha : isOdd a = true) : callPc back a u = .error (.trap .pcOdd) := by
  simp [callPc, needEven_of_odd ha]

theorem needEntries_one_of_ne {id : StackId} (hn : (s.stack id).ctr.toNat ≠ 0) : needEntries id 1 s = .ok () :=
  needEntries_of_le (Nat.one_le_iff_ne_zero.2 hn)

theorem returnPc_odd (hn : (s.stack .ret).ctr.toNat ≠ 0) (ha : isOdd s.r0 = true) :
    returnPc s = .error (.trap .pcOdd) := by
  simp [returnPc, needEntries_one_of_ne hn, needEven_of_odd ha]

theorem popInto_pc_odd {id : StackId} (hn : (s.stack id).ctr.toNat ≠ 0) (ha : isOdd (s.stack id).regs.e0 = true) :
    popInto id .pc s = .error (.trap .pcOdd) := by
  simp [popInto, needEntries_one_of_ne hn, needEven_of_odd ha]

/-! ## The instructions whose target is in the instruction or on a stack -/

/-- The target of a conditional instruction, where it has one. -/
theorem met_of_target {c : Bool} {target : Word} (h : (if c then some a else none) = some target) :
    c = true ∧ a = target := by
  split at h
  · next hc => exact ⟨hc, Option.some.inj h⟩
  · cases h

/-- The jumps and calls through P0: the underflow test, then the test of the target, then all the rest. -/
theorem popTarget_odd {met notMet : Run State} (hk : s.cond k = true) (hn : (s.stack .param).ctr.toNat ≠ 0)
    (ha : isOdd a = true) :
    (do needEntries .param 1 s; if s.cond k then (do needEven a; met) else notMet : Run State)
      = .error (.trap .pcOdd) := by
  rw [needEntries_one_of_ne hn, bind_ok, if_pos hk, needEven_of_odd ha, bind_error]

/-- Every instruction with a computed target tests it before it does anything. -/
theorem pcOdd_of_computedTarget {target : Word} (ht : computedTarget i s = some target) (ho : isOdd target = true)
    (hp : ¬ paramUnderflows i s) (hr : ¬ returnUnderflows i s) :
    Completes i s { s with pc := 0x000C#16 } nowhere := by
  cases i
  case cBr _ k | cJmp _ k =>
    obtain ⟨hk, rfl⟩ := met_of_target ht
    exact completes_pcOdd rfl (by rw [if_pos hk]; exact setPc_odd ho)
  case cJsr n k =>
    obtain ⟨hk, rfl⟩ := met_of_target ht
    exact completes_pcOdd rfl (by rw [if_pos hk]; exact callPc_odd ho)
  case sBr | sJmp =>
    cases ht
    exact completes_pcOdd rfl (setPc_odd ho)
  case sBsr | sJsr =>
    cases ht
    exact completes_pcOdd rfl (callPc_odd ho)
  case cpJmp k | cpJsr k | cpBsr k =>
    obtain ⟨hk, rfl⟩ := met_of_target ht
    exact completes_pcOdd rfl (popTarget_odd hk hp ho)
  case cRts k =>
    obtain ⟨hk, rfl⟩ := met_of_target ht
    exact completes_pcOdd rfl (by rw [if_pos hk]; exact returnPc_odd (fun h => hr ⟨hk, h⟩) ho)
  case popPs r =>
    cases r
    case pc => cases ht; exact completes_pcOdd rfl (popInto_pc_odd hp ho)
    all_goals cases ht
  case popRs r =>
    cases r
    case pc => cases ht; exact completes_pcOdd rfl (popInto_pc_odd hr ho)
    all_goals cases ht
  all_goals cases ht

/-! ## EMULATE and EXECUTE, whose target is a word of memory -/

theorem emulate_odd (hk : s.cond k = true) (he : s.cfg.hasEmulate = true) (hw : s.hasWord s.ppc)
    (hw' : s.hasWord (s.mem.readWord s.ppc.toNat))
    (ho : isOdd (s.mem.readWord (s.mem.readWord s.ppc.toNat).toNat) = true) :
    Completes (.emulate k) s { s with pc := 0x000C#16 } nowhere := by
  have hsecond : (s.edacReport s.ppc).hasWord (s.mem.readWord s.ppc.toNat) := by simpa [State.hasWord] using hw'
  refine completes_pcOdd rfl ?_
  simp [hk, he, memRead16_of_hasWord hw, memRead16_of_hasWord hsecond, setPc_odd ho]

theorem execute_odd (hk : s.cond k = true) (hw : s.hasWord s.hp) (ho : isOdd (s.mem.readWord s.hp.toNat) = true) :
    Completes (.execute k) s { s with pc := 0x000C#16 } nowhere := by
  refine completes_pcOdd rfl ?_
  simp [hk, memRead16_of_hasWord hw, setPc_odd ho]

end

/-- Settles O15: a computed target is tested first; EMULATE and EXECUTE give back what their reads reported. -/
theorem pcOddTraps : Obligations.PcOddTraps :=
  ⟨fun _ _ _ => pcOdd_of_computedTarget, fun _ _ => emulate_odd, fun _ _ => execute_odd⟩

end Sys2Proof.Machine
end

section
/-! PROOFS. The condition codes (O8), what they say after a compare (O29), the fetch in a step (O9), reset (O17). -/

namespace Sys2Proof.Machine

/-! ## Condition codes -/

/-- Settles O8: each code's row of the table of R41. -/
theorem conditionCodesTestTheFlags : Obligations.ConditionCodesTestTheFlags := by
  intro f
  simp [Cond.ofCode, Flags.holds]

/-! ## What a subtraction says of its operands (R141, R142) -/

/-- Equality is told by Z. -/
theorem sub_z_iff (a b : Word) : (sub a b false).z = true ↔ a = b := by
  simpa [sub, resultOf] using sub_eq_zero (a := a) (b := b)

/-- The unsigned order is told by C, the borrow. -/
theorem sub_c_iff (a b : Word) : (sub a b false).c = true ↔ a.toNat < b.toNat := by
  simp [sub, resultOf]

/-- The signed order is told by S and O together. -/
theorem sub_s_ne_o_iff (a b : Word) : (sub a b false).s ≠ (sub a b false).o ↔ a.toInt < b.toInt := by
  have ha := a.toInt_lt
  have ha' := a.le_toInt
  have hb := b.toInt_lt
  have hb' := b.le_toInt
  have hs : (sub a b false).s = decide ((a.toInt - b.toInt).bmod 65536 < 0) := by
    simp [sub, resultOf, BitVec.msb_eq_toInt, BitVec.toInt_sub]
  have ho : (sub a b false).o = (decide (a.toInt - b.toInt < -32768) || decide (32767 < a.toInt - b.toInt)) := by
    simp [sub, resultOf]
  rw [hs, ho, ne_eq, Bool.eq_iff_iff]
  simp only [Bool.or_eq_true, decide_eq_true_eq, Int.bmod_def]
  omega

/-- The nine conditions of R41 that compare: each is one of the three relations, a negation, or two joined. -/
theorem holds_of_relations {f : Flags} {a b : Word} (hz : f.z = true ↔ a = b) (hc : f.c = true ↔ a.toNat < b.toNat)
    (hs : f.s ≠ f.o ↔ a.toInt < b.toInt) :
    (f.holds .eq = true ↔ a = b) ∧ (f.holds .cs = true ↔ a.toNat < b.toNat)
    ∧ (f.holds .lo = true ↔ b.toNat < a.toNat) ∧ (f.holds .hs = true ↔ a.toNat ≤ b.toNat)
    ∧ (f.holds .cc = true ↔ b.toNat ≤ a.toNat) ∧ (f.holds .lt = true ↔ a.toInt < b.toInt)
    ∧ (f.holds .gt = true ↔ b.toInt < a.toInt) ∧ (f.holds .ge = true ↔ b.toInt ≤ a.toInt)
    ∧ (f.holds .le = true ↔ a.toInt ≤ b.toInt) := by
  have hnat : f.z = true ↔ a.toNat = b.toNat := hz.trans BitVec.toNat_inj.symm
  have hint : f.z = true ↔ a.toInt = b.toInt := hz.trans BitVec.toInt_inj.symm
  have hge : f.s = f.o ↔ b.toInt ≤ a.toInt := by rw [← not_lt, ← hs, not_ne_iff]
  refine ⟨hz, hc, ?lo, ?hs, ?cc, ?lt, ?gt, ?ge, ?le⟩ <;>
    simp only [Flags.holds, Bool.and_eq_true, Bool.or_eq_true, bne_iff_ne, beq_iff_eq, Bool.not_eq_true',
      ← Bool.not_eq_true]
  case lo => rw [hnat, hc]; omega
  case hs => rw [hnat, hc]; omega
  case cc => rw [hc]; omega
  case lt => exact hs
  case gt => rw [hint, hge]; omega
  case ge => exact hge
  case le => rw [hint, hs]; omega

theorem operandU_toNat (n : Byte) : (operandU n).toNat = n.toNat :=
  BitVec.toNat_setWidth_of_le (by decide)

/-- Settles O29: the conditions on the flags of a subtraction. -/
theorem compareMakesTheConditions : Obligations.CompareMakesTheConditions := fun s n =>
  ⟨⟨_, rfl, holds_of_relations (sub_z_iff s.p1 s.p0) (sub_c_iff s.p1 s.p0) (sub_s_ne_o_iff s.p1 s.p0)⟩,
    ⟨_, rfl, sub_c_iff s.p0 s.p1⟩, ⟨_, rfl, operandU_toNat n ▸ sub_c_iff s.p0 (operandU n)⟩⟩

/-! ## The fetch -/

section
variable {s : State} {a : Word}

/-- Above an even address there is room for one more byte. -/
theorem toNat_succ_of_even (ha : isOdd a = false) : (a + 1#16).toNat = a.toNat + 1 := by
  have h : a.toNat % 2 ≠ 1 := by simpa [isOdd, BitVec.getLsbD, Nat.testBit_zero] using ha
  rw [BitVec.toNat_add]
  simp
  omega

/-- The two bytes that every instruction has are read one after the other (R78). -/
theorem fetchBytes_short (hw : s.hasWord s.pc) (hl : isLong (s.mem.read s.pc.toNat) = false) :
    fetchBytes s = .ok ([s.mem.read s.pc.toNat, s.mem.read (s.pc.toNat + 1)],
      (s.edacReport s.pc).edacReport (s.pc + 1#16)) := by
  have hnext := toNat_succ_of_even hw.1
  have h0 : s.hasByte s.pc := Nat.lt_of_succ_lt hw.2
  have h1 : (s.edacReport s.pc).hasByte (s.pc + 1#16) := by simpa [State.hasByte, hnext] using hw.2
  simp [fetchBytes, hw.1, memRead8_of_hasByte h0, memRead8_of_hasByte h1, hnext, hl]

/-- A first byte of format L has the operand word read too (R106, R109). -/
theorem fetchBytes_long (hw : s.hasWord s.pc) (hl : isLong (s.mem.read s.pc.toNat) = true)
    (hw2 : s.hasWord (after2 s.pc)) :
    fetchBytes s = .ok ([s.mem.read s.pc.toNat, s.mem.read (s.pc.toNat + 1), s.mem.read (after2 s.pc).toNat,
        s.mem.read ((after2 s.pc).toNat + 1)],
      ((s.edacReport s.pc).edacReport (s.pc + 1#16)).edacReport (after2 s.pc)) := by
  have hnext := toNat_succ_of_even hw.1
  have h0 : s.hasByte s.pc := Nat.lt_of_succ_lt hw.2
  have h1 : (s.edacReport s.pc).hasByte (s.pc + 1#16) := by simpa [State.hasByte, hnext] using hw.2
  have h2 : ((s.edacReport s.pc).edacReport (s.pc + 1#16)).hasWord (after2 s.pc) := by
    simpa [State.hasWord] using hw2
  simp [fetchBytes, hw.1, memRead8_of_hasByte h0, memRead8_of_hasByte h1, memRead16_of_hasWord h2, hnext, hl,
    Memory.readWord, lowByte_wordOfBytes, highByte_wordOfBytes]

/-- Fetched bytes that decode are run in the state after their reports. -/
theorem runInstr_of_decode {bytes rest : List Byte} {u : State} {i : Instr} (hf : fetchBytes s = .ok (bytes, u))
    (hd : decode bytes = .ok (i, rest)) : runInstr s = exec i u := by
  simp [runInstr, fetch, hf, hd]

theorem step_of_quiet (hq : s.quiet) : step s = runInstr s.pastBoundary := by
  simp [step, boundary_of_quiet hq]

end

/-- Settles O9: past a quiet boundary the two or four bytes are fetched, decoded and run. -/
theorem stepRunsDecodedInstruction : Obligations.StepRunsDecodedInstruction := by
  intro s i hw u
  have hnone (he : s.env.edac = []) (a : Word) : u.edacReport a = u := State.edacReport_of_nil u a he
  refine ⟨pastBoundary_of_nil, fun rest hb => by simp [u, State.pastBoundary, hb], fun hq hl hd => ?_,
    fun hq hl hw2 hd => ?_⟩
  · have hrun := (step_of_quiet hq).trans (runInstr_of_decode (fetchBytes_short (s := u) hw hl) hd)
    exact ⟨hrun, fun he => by rw [hrun, pastBoundary_pc, hnone he, hnone he]⟩
  · have hrun := (step_of_quiet hq).trans (runInstr_of_decode (fetchBytes_long (s := u) hw hl hw2) hd)
    exact ⟨hrun, fun he => by rw [hrun, pastBoundary_pc, hnone he, hnone he, hnone he]⟩

/-! ## Reset -/

/-- Settles O17: the fields of the reset state. -/
theorem resetMeetsInvariant : Obligations.ResetMeetsInvariant :=
  ⟨⟨rfl, by decide, by decide⟩, rfl, rfl, rfl, rfl⟩

end Sys2Proof.Machine
end

section
/-! PROOFS. Memory accesses and the EDAC report (O21, O22, O23). -/

namespace Sys2Proof.Machine

/-! ## Reading back what a word write stored -/

theorem Memory.read_writeWord_low {m : Memory} {a : Nat} (v : Word) (h : m.wf = true) (ha : a < 65536) :
    (m.writeWord a v).read a = lowByte v := by
  unfold Memory.writeWord
  rw [Memory.read_write _ _ _ (Memory.wf_write _ h ha), if_neg (Nat.ne_of_lt a.lt_succ_self), Memory.read_write _ _ _ h,
    if_pos rfl]

theorem Memory.read_writeWord_high {m : Memory} {a : Nat} (v : Word) (h : m.wf = true) (ha : a < 65536) :
    (m.writeWord a v).read (a + 1) = highByte v := by
  unfold Memory.writeWord
  rw [Memory.read_write _ _ _ (Memory.wf_write _ h ha), if_pos rfl]

/-- Settles O21: the write succeeds, and the memory written is told by the read-after-write laws. -/
theorem writesChangeTheirBytes : Obligations.WritesChangeTheirBytes := by
  intro s a hm
  refine ⟨fun v ha => ⟨_, memWrite8_of_hasByte v ha, rfl, ?_, read_write_outside hm a v⟩,
    fun v ha => ⟨_, memWrite16_of_hasWord v ha, rfl, ?_, ?_, fun b h0 h1 => ?_⟩⟩
  · exact (Memory.read_write _ _ v hm).trans (if_pos rfl)
  · exact Memory.read_writeWord_low v hm a.isLt
  · exact Memory.read_writeWord_high v hm a.isLt
  · exact Memory.read_writeWord_other v hm a.isLt h0 h1

/-! ## The report of a read (R93) -/

section
variable {s : State} {rest : List Bool}

theorem edacReport_of_corrected (a : Word) (h : s.env.edac = true :: rest) :
    s.edacReport a = { s with
      env := { s.env with edac := rest }, flags := { s.flags with ee := true, ec := s.flags.ec + 1#6 }, ea := a } := by
  simp [State.edacReport, h]

theorem edacReport_of_uncorrected (a : Word) (h : s.env.edac = false :: rest) :
    s.edacReport a = { s with env := { s.env with edac := rest } } := by
  simp [State.edacReport, h]

end

/-- Nothing but EE, EC, EA and the oracle's script can change at a report. -/
theorem edacReport_eq (s : State) (a : Word) : ∃ ee ec ea edac, s.edacReport a
    = { s with flags := { s.flags with ee := ee, ec := ec }, ea := ea, env := { s.env with edac := edac } } := by
  rcases he : s.env.edac with _ | ⟨_ | _, rest⟩
  · exact ⟨s.flags.ee, s.flags.ec, s.ea, s.env.edac, State.edacReport_of_nil s a he⟩
  · exact ⟨s.flags.ee, s.flags.ec, s.ea, rest, edacReport_of_uncorrected a he⟩
  · exact ⟨true, s.flags.ec + 1#6, a, rest, edacReport_of_corrected a he⟩

/-- Settles O22: the accesses to fitted memory, and the report. -/
theorem readsGiveTheBytes : Obligations.ReadsGiveTheBytes := fun s a =>
  ⟨memRead8_of_hasByte, memRead16_of_hasWord, edacReport_eq s a⟩

/-- Settles O23: one case for each thing the oracle's script can say next. -/
theorem edacReportCountsCorrections : Obligations.EdacReportCountsCorrections := by
  intro s a rest
  refine ⟨fun h => ?_, edacReport_of_uncorrected a, State.edacReport_of_nil s a⟩
  rw [edacReport_of_corrected a h]
  exact ⟨rfl, BitVec.toNat_add _ _, rfl, rfl⟩

end Sys2Proof.Machine
end

section
/-! PROOFS. The host's ports: the inputs and outputs (O52, O53). -/

namespace Sys2Proof.Machine

section
variable {i : Instr} {s t u : State} {p : Word} {k : Cond}

/-! ## Port accesses -/

theorem portRead16_of_even (s : State) (h : isOdd p = false) :
    portRead16 p s = .ok (s.portAnswer.1, s.portAnswer.2.logPort (.read16 p s.portAnswer.1)) := by
  simp [portRead16, h]

theorem portRead16_odd (s : State) (h : isOdd p = true) : portRead16 p s = .error (.refused (.oddPortAccess p)) := by
  simp [portRead16, h]

theorem portWrite16_of_even (v : Word) (s : State) (h : isOdd p = false) :
    portWrite16 p v s = .ok (s.logPort (.write16 p v)) := by
  simp [portWrite16, h]

theorem portWrite16_odd (v : Word) (s : State) (h : isOdd p = true) :
    portWrite16 p v s = .error (.refused (.oddPortAccess p)) := by
  simp [portWrite16, h]

/-- The host's answer is the next one of its script (R82). -/
theorem portAnswer_of_cons {w : Word} {rest : List Word} (h : s.env.portIn = w :: rest) :
    s.portAnswer = (w, { s with env := { s.env with portIn := rest } }) := by
  simp [State.portAnswer, h]

/-- Past the end of the script the answer is a free value. -/
theorem portAnswer_of_nil (h : s.env.portIn = []) :
    s.portAnswer = (Config.portAnswer s.free, { s with free := s.free + 1 }) := by
  simp [State.portAnswer, h]

/-! ## Inputs -/

/-- The end of cIN and cINB: the host's answer `v` to `call` is pushed. -/
theorem completes_push_answer {call : PortCall} {v w : Word}
    (he : exec i s = complete s (do
      let s2 ← orHalt (push .param v (s.portAnswer.2.logPort call))
      .ok (s2.setZ true).next4))
    (hv : v = w) (hm : s.mem.wf = true) (hr : s.pushReady .param) :
    Completes i s { (s.portAnswer.2.logPort call).afterPush .param w with
      pc := s.pc + 4#16, flags := { s.flags with z := true } } (s.spillsTo .param) := by
  rw [← portAnswer_flags s]
  exact completes_push_setZ he hv (by simp) (by simp) (by simp) (by simp) hm hr

/-- The end of cpIN and cpINB: the host's answer `v` to `call` replaces P0. -/
theorem completes_setP0_answer {call : PortCall} {v w : Word}
    (he : exec i s = complete s (.ok (((s.portAnswer.2.logPort call).setP0 v).setZ true).next2)) (hv : v = w) :
    Completes i s { s.portAnswer.2.logPort call with
      pc := s.pc + 2#16, flags := { s.flags with z := true }
      ps := { s.ps with regs := { s.ps.regs with e0 := w } } } nowhere := by
  subst hv
  refine completes_nowhere he (congrArg _ ?_) (portAnswer_mem s)
  rw [← portAnswer_ps s, ← portAnswer_flags s]
  exact setZ_next2_eq (u := (s.portAnswer.2.logPort call).setP0 v) (portAnswer_pc s) true

end

/-- Settles O52: the host is asked, then its answer is pushed or put into P0. -/
theorem inputs : Obligations.Inputs := by
  intro s n k
  dsimp only
  refine ⟨fun w rest => portAnswer_of_cons, fun h => ⟨_, portAnswer_of_nil h⟩, fun hk hm =>
    ⟨fun hr hn => ?_, fun hr => ?_, fun hp => ?_, ?_⟩⟩
  · refine completes_push_answer ?_ rfl hm hr
    show execCIn n k s = _
    simp [execCIn, hk, portRead16_of_even s hn]
  · refine completes_push_answer ?_ (operandU_eq _) hm hr
    show execCInB n k s = _
    simp [execCInB, hk, portRead8, lowByte]
  · refine completes_setP0_answer ?_ rfl
    show execCpIn k s = _
    simp [execCpIn, hk, portRead16_of_even s hp]
  · refine completes_setP0_answer ?_ (operandU_eq _)
    show execCpInB k s = _
    simp [execCpInB, hk, portRead8, lowByte]

/-! ## Outputs -/

section
variable {i : Instr} {s u : State}

/-- The end of cpOUT and cpOUTB, from the state `u` after the host call, or before it where there is none. -/
theorem completes_pop_pop
    (he : exec i s = complete s
      (do let (_, s2) ← pop .param u; let (_, s3) ← pop .param s2; .ok s3.next2))
    (hr : u.popTwiceReady .param) (hpc : u.pc = s.pc) (hm : u.mem = s.mem) :
    Completes i s { (u.afterPop .param).afterPop .param with pc := s.pc + 2#16 } nowhere := by
  obtain ⟨h1, h2⟩ := popReady_of_twice hr
  refine completes_nowhere he ?_ (by simp [hm])
  rw [pop_of_ready h1, bind_ok]
  dsimp only
  rw [pop_of_ready h2]
  exact congrArg Except.ok (next2_eq (by simp [hpc]))

end

/-- Settles O53: the host is told, then one or two entries are popped. -/
theorem outputs : Obligations.Outputs := by
  intro s n k
  refine ⟨fun hk hr hn => ?_, fun hk hr => ?_, fun hk hr hp => ?_, fun hk hr => ?_, fun hk hr => ⟨?_, ?_⟩⟩
  · refine completes_pop_setZ_next4 ?_ hr rfl (fun _ _ => rfl)
    show execCOut n k s = _
    simp [execCOut, hk, needEntries_one_of_popReady hr, portWrite16_of_even _ s hn]
  · refine completes_pop_setZ_next4 ?_ hr rfl (fun _ _ => rfl)
    show execCOutB n k s = _
    simp [execCOutB, hk, needEntries_one_of_popReady hr, portWrite8, lowByte]
  · refine completes_pop_pop ?_ hr rfl rfl
    show execCpOut k s = _
    simp [execCpOut, hk, needEntries_of_le hr.1, portWrite16_of_even _ s hp]
  · refine completes_pop_pop ?_ hr rfl rfl
    show execCpOutB k s = _
    simp [execCpOutB, hk, needEntries_of_le hr.1, portWrite8, lowByte]
  · refine completes_pop_pop ?_ hr rfl rfl
    show execCpOut k s = _
    simp [execCpOut, hk, needEntries_of_le hr.1]
  · refine completes_pop_pop ?_ hr rfl rfl
    show execCpOutB k s = _
    simp [execCpOutB, hk, needEntries_of_le hr.1]

end Sys2Proof.Machine
end

section
/-! PROOFS. Who calls the host (O18). What the machine holds of its host ports is left alone by every operation but a
port access, so by every instruction but the eight of R81; each of those makes its one access first. -/

namespace Sys2Proof.Machine

/-! ## The script of answers and the record of calls -/

/-- The host's answers to come and the record of the calls made (R82). -/
def State.ports (s : State) : List Word × List PortCall := (s.env.portIn, s.env.portLog)

theorem ports_eq_iff {s t : State} :
    t.ports = s.ports ↔ t.env.portLog = s.env.portLog ∧ t.env.portIn = s.env.portIn := by
  simp [State.ports, and_comm]

section
variable (s : State)

@[simp] theorem ports_goto (a : Word) : (s.goto a).ports = s.ports := rfl
@[simp] theorem ports_next2 : s.next2.ports = s.ports := rfl
@[simp] theorem ports_next4 : s.next4.ports = s.ports := rfl
@[simp] theorem ports_setZ (b : Bool) : (s.setZ b).ports = s.ports := rfl
@[simp] theorem ports_withResult (r : AluResult) : (s.withResult r).ports = s.ports := rfl
@[simp] theorem ports_setP0 (v : Word) : (s.setP0 v).ports = s.ports := rfl
@[simp] theorem ports_setPpc (v : Word) : (s.setPpc v).ports = s.ports := rfl
@[simp] theorem ports_setHp (v : Word) : (s.setHp v).ports = s.ports := rfl
@[simp] theorem ports_withMem (m : Memory) : ({ s with mem := m } : State).ports = s.ports := rfl
@[simp] theorem ports_edacReport (a : Word) : (s.edacReport a).ports = s.ports := by simp [State.ports]
@[simp] theorem ports_afterPush (k : StackId) (v : Word) : (s.afterPush k v).ports = s.ports := by simp [State.ports]
@[simp] theorem ports_afterPop (k : StackId) : (s.afterPop k).ports = s.ports := by simp [State.ports]
@[simp] theorem ports_writeReg (r : Reg) (v : Word) : (s.writeReg r v).ports = s.ports := by simp [State.ports]

end

/-! ## Instructions that do not call the host -/

/-- `t` has the host's answers and the record of calls of `s`. -/
def SamePorts (s t : State) : Prop := t.ports = s.ports

@[simp] theorem samePorts_iff {s t : State} : SamePorts s t ↔ t.ports = s.ports := Iff.rfl

section
variable {s t u : State}

/-- The traps call no host, so an instruction whose effect does not does not. -/
theorem SamePorts.of_complete {x : Run State} (h : complete s x = .next t) (hx : Sat x (SamePorts s)) :
    SamePorts s t := next_of_sat h hx rfl fun _ _ _ => by simp

theorem SamePorts.of_effect (h : complete s (.ok u) = .next t) (hu : SamePorts s u) : SamePorts s t :=
  .of_complete h (sat_ok hu)

/-! ### The shapes that several instructions share -/

theorem push_samePorts {id : StackId} {v : Word} {f : State → State} (hu : SamePorts s u)
    (hf : ∀ w, (f w).ports = w.ports := by intro w; rfl) :
    Sat (do let s1 ← orHalt (push id v u); .ok (f s1)) (SamePorts s) :=
  sat_bind <| sat_orHalt <| sat_push fun _ => sat_ok (by simpa [hf] using hu)

/-- The end of cpSTORE and cpSTOREB. -/
theorem pop_pop_setZ_samePorts {b : Bool} (hu : SamePorts s u) :
    Sat (do let (_, s2) ← pop .param u; let (_, s3) ← pop .param s2; .ok (s3.setZ b).next2) (SamePorts s) :=
  sat_bind <| sat_pop fun _ => sat_bind <| sat_pop fun _ => sat_ok (by simpa using hu)

theorem setPc_samePorts {a : Word} (hu : SamePorts s u) : Sat (setPc a u) (SamePorts s) :=
  sat_bind <| sat_needEven fun _ => sat_ok hu

theorem callPc_samePorts {back a : Word} (hu : SamePorts s u) : Sat (callPc back a u) (SamePorts s) :=
  sat_bind <| sat_needEven fun _ => push_samePorts hu

theorem returnPc_samePorts : Sat (returnPc s) (SamePorts s) :=
  sat_bind <| sat_needEntries <| sat_bind <| sat_needEven fun _ => sat_bind <| sat_pop fun _ => sat_ok (by simp)

theorem popInto_samePorts {id : StackId} {r : Reg} : Sat (popInto id r s) (SamePorts s) := by
  have hpop : Sat (do let (v, s1) ← pop id s; .ok (s1.writeReg r v)) (SamePorts s) :=
    sat_bind <| sat_pop fun _ => sat_ok (by simp)
  exact sat_bind <| sat_needEntries <| sat_ite (fun _ => sat_bind <| sat_needEven fun _ => hpop) (fun _ => hpop)

/-- The calls and jumps through P0, with `taken` what they do after the pop. -/
theorem popTarget_samePorts {k : Cond} {a : Word} {taken : Word × State → Run State}
    (ht : ∀ v u, SamePorts s u → Sat (taken (v, u)) (SamePorts s)) :
    Sat (do
      needEntries .param 1 s
      if s.cond k then (do needEven a; let p ← pop .param s; taken p)
      else (do let (_, s1) ← pop .param s; .ok s1.next2)) (SamePorts s) :=
  sat_bind <| sat_needEntries <| sat_ite
    (fun _ => sat_bind <| sat_needEven fun _ => sat_bind <| sat_pop fun _ => ht _ _ (by simp))
    (fun _ => sat_bind <| sat_pop fun _ => sat_ok (by simp))

end

/-- R291: an instruction that is none of the eight leaves the host's ports alone. -/
theorem exec_samePorts (i : Instr) {s t : State} (hi : isIo i = false) (h : exec i s = .next t) : SamePorts s t := by
  cases i
  case cIn | cInB | cpIn | cpInB | cOut | cOutB | cpOut | cpOutB => cases hi
  case addU | adcU | subU | sbcU | rsubU | rsbcU | andU | orU | eorU | maskU => exact .of_effect h rfl
  case addS | adcS | subS | sbcS | rsubS | rsbcS | andS | orS | eorS => exact .of_effect h rfl
  case maskP | cpl | neg | lsl | lsr | rol | ror | asr => exact .of_effect h rfl
  case rcmpU | cmpU | tstU | rcmpS | cmpS | tstS | cmpP | rcmpP | tstP => exact .of_effect h rfl
  case nop | xb | flag | swap | rtu | rtd | xrp | clear => exact .of_effect h rfl
  case set =>
    change execSet _ s = _ at h
    unfold execSet at h
    split at h
    · cases h
    · exact .of_effect h rfl
  case addP | adcP | subP | sbcP | rsubP | rsbcP | andP | orP | eorP | del =>
    exact .of_complete h <| sat_bind <| sat_pop fun _ => sat_ok (by simp)
  case uNLoad | sNLoad | dupl | sot | idx | pushPs | pushRs | dfx =>
    exact .of_complete h <| sat_bind <| sat_orHalt <| sat_push fun _ => sat_ok (by simp)
  case ptor | rtop =>
    exact .of_complete h <| sat_bind <| sat_pop fun _ => push_samePorts (by simp)
  case popPs | popRs => exact .of_complete h popInto_samePorts
  case sJmp | sBr => exact .of_complete h <| setPc_samePorts rfl
  case sJsr | sBsr => exact .of_complete h <| callPc_samePorts rfl
  case cBr | cJmp => exact .of_complete h <| sat_ite (fun _ => setPc_samePorts rfl) (fun _ => sat_ok rfl)
  case cJsr => exact .of_complete h <| sat_ite (fun _ => callPc_samePorts rfl) (fun _ => sat_ok rfl)
  case cRts => exact .of_complete h <| sat_ite (fun _ => returnPc_samePorts) (fun _ => sat_ok rfl)
  case cpJmp => exact .of_complete h <| popTarget_samePorts fun _ _ hu => sat_ok hu
  case cpJsr | cpBsr => exact .of_complete h <| popTarget_samePorts fun _ _ hu => callPc_samePorts hu
  case cNLoad => exact .of_complete h <| sat_ite (fun _ => push_samePorts rfl) (fun _ => sat_ok rfl)
  case cLoad =>
    exact .of_complete h <| sat_ite
      (fun _ => sat_bind <| sat_orHalt <| sat_memRead16 fun _ => push_samePorts (by simp))
      (fun _ => sat_ok rfl)
  case cLoadB =>
    exact .of_complete h <| sat_ite
      (fun _ => sat_bind <| sat_orHalt <| sat_memRead8 fun _ => push_samePorts (by simp))
      (fun _ => sat_ok rfl)
  case cpLoad =>
    exact .of_complete h <| sat_ite (fun _ => sat_bind <| sat_orHalt <| sat_memRead16 fun _ => sat_ok (by simp))
      (fun _ => sat_bind <| sat_pop fun _ => sat_ok (by simp))
  case cpLoadB =>
    exact .of_complete h <| sat_ite (fun _ => sat_bind <| sat_orHalt <| sat_memRead8 fun _ => sat_ok (by simp))
      (fun _ => sat_bind <| sat_pop fun _ => sat_ok (by simp))
  case sLoad | jppc => exact .of_complete h <| sat_bind <| sat_orHalt <| sat_memRead16 fun _ => sat_ok (by simp)
  case cStore =>
    exact .of_complete h <| sat_ite
      (fun _ => sat_bind <| sat_needEntries <| sat_bind <| sat_orHalt <| sat_memWrite16 fun _ =>
        sat_bind <| sat_pop fun _ => sat_ok (by simp))
      (fun _ => sat_ok rfl)
  case cStoreB =>
    exact .of_complete h <| sat_ite
      (fun _ => sat_bind <| sat_needEntries <| sat_bind <| sat_orHalt <| sat_memWrite8 fun _ =>
        sat_bind <| sat_pop fun _ => sat_ok (by simp))
      (fun _ => sat_ok rfl)
  case cpStore =>
    exact .of_complete h <| sat_bind <| sat_needEntries <| sat_ite
      (fun _ => sat_bind <| sat_orHalt <| sat_memWrite16 fun _ => pop_pop_setZ_samePorts rfl)
      (fun _ => sat_bind <| sat_ok <| pop_pop_setZ_samePorts rfl)
  case cpStoreB =>
    exact .of_complete h <| sat_bind <| sat_needEntries <| sat_ite
      (fun _ => sat_bind <| sat_orHalt <| sat_memWrite8 fun _ => pop_pop_setZ_samePorts rfl)
      (fun _ => sat_bind <| sat_ok <| pop_pop_setZ_samePorts rfl)
  case sStore => exact .of_complete h <| sat_bind <| sat_orHalt <| sat_memWrite16 fun _ => sat_ok rfl
  case emulate =>
    exact .of_complete h <| sat_ite (fun _ => sat_error) fun _ => sat_ite
      (fun _ => sat_bind <| sat_orHalt <| sat_memRead16 fun _ => sat_bind <| sat_orHalt <| sat_memRead16 fun _ =>
        setPc_samePorts (by simp))
      (fun _ => sat_ok rfl)
  case execute =>
    exact .of_complete h <| sat_ite
      (fun _ => sat_bind <| sat_orHalt <| sat_memRead16 fun _ => setPc_samePorts (by simp)) (fun _ => sat_ok rfl)
  case prepare =>
    exact .of_complete h <| sat_ite
      (fun _ => sat_bind <| sat_orHalt <| sat_memRead16 fun _ => sat_ok (by simp)) (fun _ => sat_ok rfl)
  case refresh =>
    exact .of_complete h <| sat_ite
      (fun _ => sat_bind <| sat_orHalt <| sat_memRead16 fun _ => sat_bind <| sat_orHalt <| sat_memWrite16 fun _ =>
        sat_ok (by simp [State.ports]))
      (fun _ => sat_ok rfl)
  case twoBlit =>
    exact .of_complete h <| sat_bind <| sat_orHalt <| sat_memRead16 fun _ => push_samePorts (by simp)

/-! ## The eight that do -/

/-- At most one more call is on record at `t` than at `s`. -/
def AtMostOneCall (s t : State) : Prop :=
  t.env.portLog = s.env.portLog ∨ ∃ call, t.env.portLog = call :: s.env.portLog

namespace AtMostOneCall

variable {s t u : State}

theorem refl (s : State) : AtMostOneCall s s := .inl rfl
theorem logPort (s : State) (c : PortCall) : AtMostOneCall s (s.logPort c) := .inr ⟨c, rfl⟩
theorem answer (s : State) (c : PortCall) : AtMostOneCall s (s.portAnswer.2.logPort c) := .inr ⟨c, by simp⟩

theorem afterPush (h : AtMostOneCall s u) (k : StackId) (v : Word) : AtMostOneCall s (u.afterPush k v) := by
  simpa [AtMostOneCall] using h

theorem afterPop (h : AtMostOneCall s u) (k : StackId) : AtMostOneCall s (u.afterPop k) := by
  simpa [AtMostOneCall] using h

theorem setZ (h : AtMostOneCall s u) (b : Bool) : AtMostOneCall s (u.setZ b) := h
theorem setP0 (h : AtMostOneCall s u) (v : Word) : AtMostOneCall s (u.setP0 v) := h
theorem next2 (h : AtMostOneCall s u) : AtMostOneCall s u.next2 := h
theorem next4 (h : AtMostOneCall s u) : AtMostOneCall s u.next4 := h

theorem of_complete {x : Run State} (h : complete s x = .next t) (hx : Sat x (AtMostOneCall s)) : AtMostOneCall s t :=
  next_of_sat h hx (refl s) fun _ _ _ => (refl s).afterPush _ _

/-! ### The ends of the inputs and outputs, from the state `u` after the call -/

theorem push_setZ_next4 {v : Word} (h : AtMostOneCall s u) :
    Sat (do let s2 ← orHalt (push .param v u); .ok (s2.setZ true).next4) (AtMostOneCall s) :=
  sat_bind <| sat_orHalt <| sat_push fun _ => sat_ok ((h.afterPush _ _).setZ true).next4

theorem pop_setZ_next4 (h : AtMostOneCall s u) :
    Sat (do let (_, s2) ← pop .param u; .ok (s2.setZ true).next4) (AtMostOneCall s) :=
  sat_bind <| sat_pop fun _ => sat_ok ((h.afterPop _).setZ true).next4

theorem pop_setZ_next2 : Sat (do let (_, s1) ← pop .param s; .ok (s1.setZ false).next2) (AtMostOneCall s) :=
  sat_bind <| sat_pop fun _ => sat_ok (((refl s).afterPop _).setZ false).next2

theorem pop_pop_next2 (h : AtMostOneCall s u) :
    Sat (do let (_, s2) ← pop .param u; let (_, s3) ← pop .param s2; .ok s3.next2) (AtMostOneCall s) :=
  sat_bind <| sat_pop fun _ => sat_bind <| sat_pop fun _ => sat_ok ((h.afterPop _).afterPop _).next2

end AtMostOneCall

open AtMostOneCall in
/-- R291: one of the eight makes its call first, if its condition is met, and no other. -/
theorem exec_atMostOneCall_of_io (i : Instr) {s t : State} (hi : isIo i = true) (h : exec i s = .next t) :
    AtMostOneCall s t := by
  cases i
  case cIn =>
    exact of_complete h <| sat_ite
      (fun _ => sat_bind <| sat_orHalt <| sat_portRead16 <| push_setZ_next4 (answer s _)) (fun _ => sat_ok (refl s))
  case cInB =>
    exact of_complete h <| sat_ite (fun _ => push_setZ_next4 (answer s _)) (fun _ => sat_ok (refl s))
  case cpIn =>
    exact of_complete h <| sat_ite
      (fun _ => sat_bind <| sat_orHalt <| sat_portRead16 <| sat_ok (((answer s _).setP0 _).setZ true).next2)
      (fun _ => pop_setZ_next2)
  case cpInB =>
    exact of_complete h <| sat_ite (fun _ => sat_ok (((answer s _).setP0 _).setZ true).next2) (fun _ => pop_setZ_next2)
  case cOut =>
    exact of_complete h <| sat_ite
      (fun _ => sat_bind <| sat_needEntries <| sat_bind <| sat_orHalt <| sat_portWrite16 <|
        pop_setZ_next4 (logPort s _))
      (fun _ => sat_ok (refl s))
  case cOutB =>
    exact of_complete h <| sat_ite (fun _ => sat_bind <| sat_needEntries <| pop_setZ_next4 (logPort s _))
      (fun _ => sat_ok (refl s))
  case cpOut =>
    exact of_complete h <| sat_bind <| sat_needEntries <| sat_ite
      (fun _ => sat_bind <| sat_orHalt <| sat_portWrite16 <| pop_pop_next2 (logPort s _))
      (fun _ => sat_bind <| sat_ok <| pop_pop_next2 (refl s))
  case cpOutB =>
    refine of_complete h <| sat_bind <| sat_needEntries <| pop_pop_next2 ?_
    split
    · exact logPort s _
    · exact refl s
  all_goals cases hi

/-- Settles O18: the ninety-five leave the ports alone, the eight add at most one call. -/
theorem onlyIoCallsTheHost : Obligations.OnlyIoCallsTheHost := by
  intro i s t h
  have hquiet (hi : isIo i = false) := ports_eq_iff.1 (exec_samePorts i hi h)
  refine ⟨hquiet, ?_⟩
  cases hi : isIo i with
  | false => exact .inl (hquiet hi).1
  | true => exact exec_atMostOneCall_of_io i hi h

end Sys2Proof.Machine
end

section
/-! PROOFS. Where the machine stops (O58, O59, O60): when the first thing an instruction does cannot be done, the
instruction stops with that halt. Said once for every halt; that an odd address is refused and an absent one faults is
then the law of the access. -/

namespace Sys2Proof.Machine

/-! ## A run that stops at its first operation -/

section
variable {i : Instr} {s : State} {e : Halt} {o : Host.Outcome State Fault Refusal}

/-- An instruction whose first operation halts. -/
theorem complete_halt_first {α : Type} {x : Except Halt α} {f : α → Run State} (hx : x = .error e) :
    complete s (orHalt x >>= f) = e.outcome := by rw [hx]; rfl

theorem complete_halt_pop {id : StackId} {f : Word × State → Run State} (hx : pop id s = .error (.halt e)) :
    complete s (pop id s >>= f) = e.outcome := by rw [hx]; rfl

/-- An instruction whose first operation traps. -/
theorem complete_trap_first {α : Type} {t : Trap} {x : Run α} {f : α → Run State} (hx : x = .error (.trap t)) :
    complete s (x >>= f) = settle (enterTrap t s) := by rw [hx]; rfl

theorem complete_ok_first {α : Type} {a : α} {x : Run α} {f : α → Run State} (hx : x = .ok a)
    (hf : complete s (f a) = o) : complete s (x >>= f) = o := by rw [hx]; exact hf

theorem complete_if_pos {c : Prop} [Decidable c] {x y : Run State} (hc : c) (hx : complete s x = o) :
    complete s (if c then x else y) = o := by rw [if_pos hc]; exact hx

theorem complete_if_neg {c : Prop} [Decidable c] {x y : Run State} (hc : ¬ c) (hy : complete s y = o) :
    complete s (if c then x else y) = o := by rw [if_neg hc]; exact hy

end

/-! ## Instructions with a memory access: the access is their first operation, or follows the underflow test -/

section
variable {s : State} {n : Word} {k : Cond} {abc : BitVec 12} {e : Halt}

theorem exec_cLoad_halt (hk : s.cond k = true) (h : memRead16 n s = .error e) : exec (.cLoad n k) s = e.outcome :=
  complete_if_pos hk (complete_halt_first h)

theorem exec_cLoadB_halt (hk : s.cond k = true) (h : memRead8 n s = .error e) : exec (.cLoadB n k) s = e.outcome :=
  complete_if_pos hk (complete_halt_first h)

theorem exec_cpLoad_halt (hk : s.cond k = true) (h : memRead16 s.p0 s = .error e) : exec (.cpLoad k) s = e.outcome :=
  complete_if_pos hk (complete_halt_first h)

theorem exec_cpLoadB_halt (hk : s.cond k = true) (h : memRead8 s.p0 s = .error e) : exec (.cpLoadB k) s = e.outcome :=
  complete_if_pos hk (complete_halt_first h)

theorem exec_sLoad_halt (h : memRead16 (abc.setWidth 16) s = .error e) : exec (.sLoad abc) s = e.outcome :=
  complete_halt_first h

theorem exec_sStore_halt (h : memWrite16 (abc.setWidth 16) s.p0 s = .error e) : exec (.sStore abc) s = e.outcome :=
  complete_halt_first h

/-- One entry at least: the underflow test of the stores and outputs to an address of the instruction is passed. -/
theorem needEntries_one_of_ctr_ne (h : s.ps.ctr ≠ 0#16) : needEntries .param 1 s = .ok () :=
  needEntries_one_of_ne (id := .param) fun h0 => h (BitVec.eq_of_toNat_eq h0)

theorem exec_cStore_halt (hk : s.cond k = true) (hc : s.ps.ctr ≠ 0#16) (h : memWrite16 n s.p0 s = .error e) :
    exec (.cStore n k) s = e.outcome :=
  complete_if_pos hk <| complete_ok_first (needEntries_one_of_ctr_ne hc) <| complete_halt_first h

theorem exec_cStoreB_halt (hk : s.cond k = true) (hc : s.ps.ctr ≠ 0#16)
    (h : memWrite8 n (lowByte s.p0) s = .error e) : exec (.cStoreB n k) s = e.outcome :=
  complete_if_pos hk <| complete_ok_first (needEntries_one_of_ctr_ne hc) <| complete_halt_first h

theorem exec_cpStore_halt (hk : s.cond k = true) (hc : 2 ≤ s.ps.ctr.toNat) (h : memWrite16 s.p0 s.p1 s = .error e) :
    exec (.cpStore k) s = e.outcome :=
  complete_ok_first (needEntries_of_le (k := .param) hc) <| complete_if_pos hk <| complete_halt_first h

theorem exec_cpStoreB_halt (hk : s.cond k = true) (hc : 2 ≤ s.ps.ctr.toNat)
    (h : memWrite8 s.p0 (lowByte s.p1) s = .error e) : exec (.cpStoreB k) s = e.outcome :=
  complete_ok_first (needEntries_of_le (k := .param) hc) <| complete_if_pos hk <| complete_halt_first h

theorem exec_twoBlit_halt (h : memRead16 s.ppc s = .error e) : exec .twoBlit s = e.outcome := complete_halt_first h

theorem exec_jppc_halt (h : memRead16 s.ppc s = .error e) : exec .jppc s = e.outcome := complete_halt_first h

theorem exec_prepare_halt (hk : s.cond k = true) (h : memRead16 s.ppc s = .error e) : exec (.prepare k) s = e.outcome :=
  complete_if_pos hk (complete_halt_first h)

theorem exec_execute_halt (hk : s.cond k = true) (h : memRead16 s.hp s = .error e) : exec (.execute k) s = e.outcome :=
  complete_if_pos hk (complete_halt_first h)

theorem exec_refresh_halt (hk : s.cond k = true) (h : memRead16 s.rr s = .error e) : exec (.refresh k) s = e.outcome :=
  complete_if_pos hk (complete_halt_first h)

theorem exec_emulate_halt (hk : s.cond k = true) (he : s.cfg.hasEmulate = true) (h : memRead16 s.ppc s = .error e) :
    exec (.emulate k) s = e.outcome :=
  complete_if_neg (by simp [he]) <| complete_if_pos hk <| complete_halt_first h

/-- The second read of EMULATE, through the header that the first one gave. -/
theorem exec_emulate_halt_header (hk : s.cond k = true) (he : s.cfg.hasEmulate = true) (hw : s.hasWord s.ppc)
    (h : memRead16 (s.mem.readWord s.ppc.toNat) (s.edacReport s.ppc) = .error e) :
    exec (.emulate k) s = e.outcome :=
  complete_if_neg (by simp [he]) <| complete_if_pos hk <|
    complete_ok_first (orHalt_eq_ok.2 (memRead16_of_hasWord hw)) <| complete_halt_first h

end

/-- Settles O58: each instruction halts with its access, and the access is refused. -/
theorem oddWordAccessIsRefused : Obligations.OddWordAccessIsRefused := fun _ _ _ _ =>
  ⟨fun hk ho => exec_cLoad_halt hk (memRead16_odd ho),
    fun hk ho => exec_cpLoad_halt hk (memRead16_odd ho),
    fun ho => ⟨exec_sLoad_halt (memRead16_odd ho), exec_sStore_halt (memWrite16_odd _ ho)⟩,
    fun hk hc ho => exec_cStore_halt hk hc (memWrite16_odd _ ho),
    fun hk hc ho => exec_cpStore_halt hk hc (memWrite16_odd _ ho),
    fun ho => ⟨exec_twoBlit_halt (memRead16_odd ho), exec_jppc_halt (memRead16_odd ho)⟩,
    fun hk ho => ⟨exec_prepare_halt hk (memRead16_odd ho), fun he => exec_emulate_halt hk he (memRead16_odd ho)⟩,
    fun hk he hw ho => exec_emulate_halt_header hk he hw (memRead16_odd ho),
    fun hk ho => exec_execute_halt hk (memRead16_odd ho),
    fun hk ho => exec_refresh_halt hk (memRead16_odd ho)⟩

/-! ## Pushes and pops -/

section
variable {s : State} {id : StackId} {e : Halt}

/-- A push that spills stops with its store (R23, R25). -/
theorem push_of_spill_halt (v : Word) (hc : 16 ≤ (s.stack id).ctr.toNat)
    (h : memWrite16 (s.stack id).ptr (s.stack id).regs.e15 s = .error e) : push id v s = .error e := by
  simp [push, hc, h]

/-- A pop that refills stops with its read (R24, R26). -/
theorem pop_of_refill_halt (hc : 16 < (s.stack id).ctr.toNat)
    (h : memRead16 ((s.stack id).ptr + 2#16) s = .error e) : pop id s = .error (.halt e) := by
  have hne : (s.stack id).ctr ≠ 0#16 := fun h0 => by simp [h0] at hc
  simp [pop, hne, hc, h]

theorem push_odd (v : Word) (hc : 16 ≤ (s.stack id).ctr.toNat) (ho : isOdd (s.stack id).ptr = true) :
    push id v s = .error (.refused (.oddWordAccess (s.stack id).ptr)) :=
  push_of_spill_halt v hc (memWrite16_odd _ ho)

theorem pop_odd (hc : 16 < (s.stack id).ctr.toNat) (ho : isOdd ((s.stack id).ptr + 2#16) = true) :
    pop id s = .error (.halt (.refused (.oddWordAccess ((s.stack id).ptr + 2#16)))) :=
  pop_of_refill_halt hc (memRead16_odd ho)

/-! ## Calls, trap entries and the interrupt, which push on the return stack -/

theorem complete_callPc_halt {back a : Word} (ha : isOdd a = false) (h : push .ret back s = .error e) :
    complete s (callPc back a s) = e.outcome :=
  complete_ok_first (needEven_of_even ha) (complete_halt_first h)

theorem trapEntry_halt {saved vector : Word} (h : push .ret saved s = .error e) :
    trapEntry saved vector s = .error e := by rw [trapEntry, h]; rfl

/-- An instruction that underflows the parameter stack takes the trap and does nothing else (R333, R341). -/
theorem exec_of_paramUnderflows {i : Instr} (h : paramUnderflows i s) :
    exec i s = settle (enterTrap .paramUnderflow s) := by
  have hzero (h0 : s.ps.ctr.toNat = 0) : pop .param s = .error (.trap .paramUnderflow) :=
    pop_empty (k := .param) (BitVec.eq_of_toNat_eq h0)
  have hneed {m : Nat} (hm : s.ps.ctr.toNat < m) : needEntries .param m s = .error (.trap .paramUnderflow) :=
    needEntries_of_lt (k := .param) hm
  cases i
  case addP | adcP | subP | sbcP | rsubP | rsbcP | andP | orP | eorP | del | ptor => exact complete_trap_first (hzero h)
  case popPs | cpJmp | cpJsr | cpBsr => exact complete_trap_first (hneed (Nat.lt_one_iff.2 h))
  case cStore | cStoreB | cOut | cOutB =>
    obtain ⟨hk, h0⟩ := h
    exact complete_if_pos hk (complete_trap_first (hneed (Nat.lt_one_iff.2 h0)))
  case cpLoad | cpLoadB | cpIn | cpInB =>
    obtain ⟨hk, h0⟩ := h
    exact complete_if_neg (Bool.eq_false_iff.1 hk) (complete_trap_first (hzero h0))
  case cpStore | cpStoreB | cpOut | cpOutB => exact complete_trap_first (hneed h)
  all_goals exact h.elim

theorem exec_of_paramUnderflows_halt {i : Instr} (hu : paramUnderflows i s) (h : push .ret s.pc s = .error e) :
    exec i s = e.outcome := by
  rw [exec_of_paramUnderflows hu, enterTrap, trapEntry_halt h, settle_error]

/-- The interrupt's push meets the return stack and memory as they were at the boundary (R344). -/
theorem interrupt_halt (hie : s.flags.ie = true)
    (h : push .ret s.pc (s.setFlags { s.flags with ie := false, i := true }) = .error e) : interrupt s = .error e := by
  rw [interrupt, if_pos hie]
  exact trapEntry_halt h

theorem interrupt_odd (hie : s.flags.ie = true) (hc : 16 ≤ s.rs.ctr.toNat) (ho : isOdd s.rs.ptr = true) :
    interrupt s = .error (.refused (.oddWordAccess s.rs.ptr)) :=
  interrupt_halt hie (push_odd (id := .ret) (s := s.setFlags _) s.pc hc ho)

/-- A step that presents INT stops when its entry does, whether or not EXT comes with it (R347). -/
theorem step_interrupt_odd {ext : Bool} {rest : List Boundary} (hb : s.env.boundary = ⟨false, ext, true⟩ :: rest)
    (hie : s.flags.ie = true) (hc : 16 ≤ s.rs.ctr.toNat) (ho : isOdd s.rs.ptr = true) :
    step s = .refused (.oddWordAccess s.rs.ptr) := by
  have hentry : interrupt (if ext then externalEvent (s.setBoundary rest) else s.setBoundary rest)
      = .error (.refused (.oddWordAccess s.rs.ptr)) := by
    cases ext with
    | true => exact interrupt_odd (s := externalEvent (s.setBoundary rest)) hie hc ho
    | false => exact interrupt_odd (s := s.setBoundary rest) hie hc ho
  have hboundary : boundary s = .error (.refused (.oddWordAccess s.rs.ptr)) := by
    simp [boundary, hb, hentry, Except.map]
  simp [step, hboundary]

end

/-- Settles O59: the spill or refill is refused, and every instruction named reaches it first. -/
theorem oddStackPointerIsRefused : Obligations.OddStackPointerIsRefused := by
  intro s n r x ext rest
  refine ⟨fun id v => push_odd v, fun id => pop_odd, ?paramPushes, fun hc ho => ?retPushes, ?paramPops, ?rtop⟩
  case paramPushes =>
    intro hc ho i hi
    have hpush (v : Word) := push_odd (id := .param) (s := s) v hc ho
    simp only [List.mem_cons, List.not_mem_nil, or_false] at hi
    rcases hi with rfl | rfl | rfl | rfl | rfl | rfl <;> exact complete_halt_first (hpush _)
  case retPushes =>
    have hpush (v : Word) := push_odd (id := .ret) (s := s) v hc ho
    refine ⟨fun i hi => ?_, fun hx => complete_callPc_halt hx (hpush _), fun hx => complete_callPc_halt hx (hpush _),
      fun i hu => exec_of_paramUnderflows_halt hu (hpush _), fun hie => interrupt_odd hie hc ho,
      fun hie hb => step_interrupt_odd hb hie hc ho⟩
    simp only [List.mem_cons, List.not_mem_nil, or_false] at hi
    rcases hi with rfl | rfl <;> exact complete_halt_first (hpush _)
  case paramPops =>
    intro hc ho i hi
    have hpop := pop_odd (id := .param) (s := s) hc ho
    simp only [List.mem_cons, List.not_mem_nil, or_false] at hi
    rcases hi with rfl | rfl | rfl | rfl | rfl | rfl | rfl | rfl | rfl | rfl | rfl <;> exact complete_halt_pop hpop
  case rtop => exact fun hc ho => complete_halt_pop (pop_odd (id := .ret) hc ho)

/-! ## Port accesses, and the forms that are refused -/

section
variable {s : State} {n : Word} {k : Cond} {e : Halt}

theorem exec_cIn_halt (hk : s.cond k = true) (h : portRead16 n s = .error e) : exec (.cIn n k) s = e.outcome :=
  complete_if_pos hk (complete_halt_first h)

theorem exec_cpIn_halt (hk : s.cond k = true) (h : portRead16 s.p0 s = .error e) : exec (.cpIn k) s = e.outcome :=
  complete_if_pos hk (complete_halt_first h)

theorem exec_cOut_halt (hk : s.cond k = true) (hc : s.ps.ctr ≠ 0#16) (h : portWrite16 n s.p0 s = .error e) :
    exec (.cOut n k) s = e.outcome :=
  complete_if_pos hk <| complete_ok_first (needEntries_one_of_ctr_ne hc) <| complete_halt_first h

theorem exec_cpOut_halt (hk : s.cond k = true) (hc : 2 ≤ s.ps.ctr.toNat) (h : portWrite16 s.p0 s.p1 s = .error e) :
    exec (.cpOut k) s = e.outcome :=
  complete_ok_first (needEntries_of_le (k := .param) hc) <| complete_if_pos hk <| complete_halt_first h

theorem exec_set_refused {m : FlagSel} (h : m = .i ∨ m = .ee) : exec (.set m) s = .refused (.unpredictableSet m) :=
  if_pos h

theorem exec_emulate_absent (h : s.cfg.hasEmulate = false) : exec (.emulate k) s = .refused .emulateAbsent :=
  complete_if_pos (by simp [h]) rfl

/-! ## The fetch -/

theorem step_of_quiet_of_fetchBytes_halt (hq : s.quiet) (h : fetchBytes s.pastBoundary = .error e) :
    step s = e.outcome := by
  simp [step_of_quiet hq, runInstr, fetch, h]

/-- R78: the first byte is read first. -/
theorem fetchBytes_absent_first (ho : isOdd s.pc = false) (h : s.cfg.memBytes ≤ s.pc.toNat) :
    fetchBytes s = .error (.fault (.absentMemory s.pc)) := by
  simp [fetchBytes, ho, memRead8_absent h]

theorem fetchBytes_absent_second (ho : isOdd s.pc = false) (h : s.cfg.memBytes = s.pc.toNat + 1) :
    fetchBytes s = .error (.fault (.absentMemory (s.pc + 1#16))) := by
  have hfirst : s.hasByte s.pc := by omega
  have hsecond : (s.edacReport s.pc).cfg.memBytes ≤ (s.pc + 1#16).toNat := by
    rw [State.edacReport_cfg, toNat_succ_of_even ho, h]
  simp [fetchBytes, ho, memRead8_of_hasByte hfirst, memRead8_absent hsecond]

theorem fetchBytes_absent_operand (hw : s.hasWord s.pc) (hl : isLong (s.mem.read s.pc.toNat) = true)
    (h : s.cfg.memBytes ≤ (after2 s.pc).toNat + 1) :
    fetchBytes s = .error (.fault (.absentMemory (after2 s.pc))) := by
  obtain ⟨ho, hroom⟩ := hw
  have hfirst : s.hasByte s.pc := Nat.lt_of_succ_lt hroom
  have hsecond : (s.edacReport s.pc).hasByte (s.pc + 1#16) := by
    simpa [State.hasByte, toNat_succ_of_even ho] using hroom
  have hoperand : ((s.edacReport s.pc).edacReport (s.pc + 1#16)).cfg.memBytes ≤ (after2 s.pc).toNat + 1 := by
    simpa using h
  simp [fetchBytes, ho, memRead8_of_hasByte hfirst, memRead8_of_hasByte hsecond, hl,
    memRead16_absent ((isOdd_after2 s.pc).trans ho) hoperand]

end

/-- Settles O60: the refused forms; then each access faults, and each instruction halts with its access. -/
theorem refusedFormsAndAbsentMemory : Obligations.RefusedFormsAndAbsentMemory := by
  intro s n k abc
  refine ⟨fun hk ho => ⟨exec_cIn_halt hk (portRead16_odd s ho), fun hc => exec_cOut_halt hk hc (portWrite16_odd _ s ho)⟩,
    fun hk ho => ⟨exec_cpIn_halt hk (portRead16_odd s ho), fun hc => exec_cpOut_halt hk hc (portWrite16_odd _ s ho)⟩,
    exec_set_refused (.inl rfl), exec_set_refused (.inr rfl), exec_emulate_absent,
    fun ha => ⟨memRead8_absent ha, fun v => memWrite8_absent v ha⟩,
    fun ho ha => ⟨memRead16_absent ho ha, fun v => memWrite16_absent v ho ha⟩,
    fun id v hc ho ha => push_of_spill_halt v hc (memWrite16_absent _ ho ha),
    fun id hc ho ha => pop_of_refill_halt hc (memRead16_absent ho ha),
    fun hq ho => ⟨?first, ?second, ?operand⟩,
    fun hk ha => ⟨exec_cLoadB_halt hk (memRead8_absent ha), fun hc => exec_cStoreB_halt hk hc (memWrite8_absent _ ha)⟩,
    fun hk ho ha => ⟨exec_cLoad_halt hk (memRead16_absent ho ha),
      fun hc => exec_cStore_halt hk hc (memWrite16_absent _ ho ha)⟩,
    ?short,
    fun hk ha => ⟨exec_cpLoadB_halt hk (memRead8_absent ha), fun hc => exec_cpStoreB_halt hk hc (memWrite8_absent _ ha)⟩,
    fun hk ho ha => ⟨exec_cpLoad_halt hk (memRead16_absent ho ha),
      fun hc => exec_cpStore_halt hk hc (memWrite16_absent _ ho ha)⟩,
    fun ho ha => ⟨exec_twoBlit_halt (memRead16_absent ho ha), exec_jppc_halt (memRead16_absent ho ha),
      fun hk => exec_prepare_halt hk (memRead16_absent ho ha),
      fun hk he => exec_emulate_halt hk he (memRead16_absent ho ha)⟩,
    ?header,
    fun hk ho ha => exec_execute_halt hk (memRead16_absent ho ha),
    fun hk ho ha => exec_refresh_halt hk (memRead16_absent ho ha)⟩
  case first =>
    exact fun ha => step_of_quiet_of_fetchBytes_halt hq (fetchBytes_absent_first (s := s.pastBoundary) ho ha)
  case second =>
    exact fun ha => step_of_quiet_of_fetchBytes_halt hq (fetchBytes_absent_second (s := s.pastBoundary) ho ha)
  case operand =>
    exact fun hw hl ha =>
      step_of_quiet_of_fetchBytes_halt hq (fetchBytes_absent_operand (s := s.pastBoundary) hw hl ha)
  case short =>
    intro ho ha
    rw [← shortAddr_toNat] at ha
    exact ⟨exec_sLoad_halt (memRead16_absent ho ha), exec_sStore_halt (memWrite16_absent _ ho ha)⟩
  case header =>
    intro hk he hw ho ha
    rw [← State.edacReport_cfg s s.ppc] at ha
    exact exec_emulate_halt_header hk he hw (memRead16_absent ho ha)

end Sys2Proof.Machine
end

section
/-! PROOFS. The decoder undoes the encoder (O1) and reads every row of the formats (O4) and the written words (O6). -/

namespace Sys2Proof

open Machine

/-! ## Nibbles, operands and selector codes -/

theorem loNibble_append (a b : BitVec 4) : loNibble (a ++ b) = b := BitVec.extractLsb'_append_eq_right

theorem hiNibble_append (a b : BitVec 4) : hiNibble (a ++ b) = a := BitVec.extractLsb'_append_eq_left

theorem hiNibble_append_loNibble (b : Byte) : hiNibble b ++ loNibble b = b := BitVec.extractLsb'_append_extractLsb'

/-- The 12-bit operand of format S, cut after its first nibble, is put together again (R102). -/
theorem shortOperand_append (x : BitVec 12) : x.extractLsb' 8 4 ++ x.extractLsb' 0 8 = x :=
  BitVec.extractLsb'_append_extractLsb'

@[simp] theorem Cond.ofCode_code (k : Cond) : Cond.ofCode k.code = k := by cases k <;> rfl

@[simp] theorem Reg.ofCode_code (r : Reg) : Reg.ofCode r.code = some r := by cases r <;> rfl

@[simp] theorem FlagSel.ofCode_code (m : FlagSel) : FlagSel.ofCode m.code = some m := by cases m <;> rfl

/-! ## The fields of the second byte -/

theorem condField_code (b0 : Byte) (k : Cond) (mk : Cond → Instr) :
    condField b0 (0#4 ++ k.code) mk = .ok (mk k) := by
  simp [condField, hiNibble_append, loNibble_append]

theorem groupField_append (b0 : Byte) (q : BitVec 4) (i : Instr) : groupField b0 (q ++ 0#4) (some i) = .ok i := by
  simp [groupField, loNibble_append]

theorem regField_code (b0 : Byte) (r : Reg) (mk : Reg → Instr) : regField b0 (r.code ++ 0#4) mk = .ok (mk r) := by
  rw [regField, hiNibble_append, Reg.ofCode_code, Option.map_some, groupField_append]

theorem flagField_code (b0 : Byte) (m : FlagSel) (mk : FlagSel → Instr) :
    flagField b0 (m.code ++ 0#4) mk = .ok (mk m) := by
  rw [flagField, hiNibble_append, FlagSel.ofCode_code, Option.map_some, groupField_append]

/-! ## Decoding by length (R106) -/

section
variable {b0 b1 : Byte} {i : Instr}

theorem decode_short (hl : isLong b0 = false) (hd : decodeWith b0 b1 0#16 = .ok i) (rest : List Byte) :
    decode (b0 :: b1 :: rest) = .ok (i, rest) := by
  simp [decode, hl, hd, Except.map]

theorem decode_long {b2 b3 : Byte} (hl : isLong b0 = true) (hd : decodeWith b0 b1 (wordOfBytes b2 b3) = .ok i)
    (rest : List Byte) : decode (b0 :: b1 :: b2 :: b3 :: rest) = .ok (i, rest) := by
  simp [decode, hl, hd, Except.map]

end

/-! ## Decoding by format -/

/-- Of the opcode nibbles only #6, #8 and #E have first bytes of format L (R106). -/
theorem isLong_append : ∀ op q : BitVec 4, op ∉ [0x6#4, 0x8#4, 0xE#4] → isLong (op ++ q) = false := by decide

/-- Format S: the operand is the lower nibble of the first byte and all of the second (R102). -/
theorem decode_encS {op : BitVec 4} {mk : BitVec 12 → Instr} (hl : op ∉ [0x6#4, 0x8#4, 0xE#4])
    (hop : ∀ b0 b1, hiNibble b0 = op → decodeWith b0 b1 0#16 = .ok (mk (loNibble b0 ++ b1)))
    (x : BitVec 12) (rest : List Byte) : decode (encS op x ++ rest) = .ok (mk x, rest) := by
  refine decode_short (isLong_append op _ hl) ?_ rest
  rw [hop _ _ (hiNibble_append op _), loNibble_append, shortOperand_append]

/-- Format B: the condition is in the first byte (R107). -/
theorem decode_cBr (ee : Byte) (k : Cond) (rest : List Byte) :
    decode (encode (.cBr ee k) ++ rest) = .ok (.cBr ee k, rest) := by
  refine decode_short (isLong_append 0x9#4 k.code (by decide)) ?_ rest
  simp [decodeWith, hiNibble_append, loNibble_append]

/-- Format L: the operand word is stored low byte first (R109). -/
theorem decode_encL {op : Byte} {mk : Word → Cond → Instr} (hl : isLong op = true)
    (hop : ∀ b1 n, decodeWith op b1 n = condField op b1 (mk n)) (n : Word) (k : Cond) (rest : List Byte) :
    decode (encL op n k ++ rest) = .ok (mk n k, rest) := by
  refine decode_long hl ?_ rest
  rw [hop, condField_code, wordOfBytes_low_high]

/-- Format C (R108). -/
theorem decode_encC {op : Byte} {mk : Cond → Instr} (hl : isLong op = false)
    (hop : ∀ b1, decodeWith op b1 0#16 = condField op b1 mk) (k : Cond) (rest : List Byte) :
    decode (encC op k ++ rest) = .ok (mk k, rest) := by
  refine decode_short hl ?_ rest
  rw [hop, condField_code]

/-- Format Q with a register (R112). -/
theorem decode_encQ_reg {op : Byte} {mk : Reg → Instr} (hl : isLong op = false)
    (hop : ∀ b1, decodeWith op b1 0#16 = regField op b1 mk) (r : Reg) (rest : List Byte) :
    decode (encQ op r.code ++ rest) = .ok (mk r, rest) := by
  refine decode_short hl ?_ rest
  rw [hop, regField_code]

/-- Format Q with a flag (R112). -/
theorem decode_encQ_flag {op : Byte} {mk : FlagSel → Instr} (hl : isLong op = false)
    (hop : ∀ b1, decodeWith op b1 0#16 = flagField op b1 mk) (m : FlagSel) (rest : List Byte) :
    decode (encQ op m.code ++ rest) = .ok (mk m, rest) := by
  refine decode_short hl ?_ rest
  rw [hop, flagField_code]

/-- The decoder undoes the encoder, whatever bytes follow. -/
theorem decode_encode (i : Instr) (rest : List Byte) : decode (encode i ++ rest) = .ok (i, rest) := by
  cases i
  case sJmp x | sJsr x | sLoad x | sStore x | sBr x | sBsr x =>
    exact decode_encS (by decide) (fun _ _ h => by simp [decodeWith, h]) x rest
  case cBr ee k => exact decode_cBr ee k rest
  case cNLoad n k | cJsr n k | cJmp n k | cLoad n k | cStore n k | cLoadB n k | cStoreB n k | cIn n k | cOut n k
      | cInB n k | cOutB n k =>
    exact decode_encL rfl (fun _ _ => rfl) n k rest
  case cpJsr k | cpJmp k | cpLoad k | cpStore k | cpLoadB k | cpStoreB k | cRts k | cpBsr k | cpIn k | cpOut k
      | cpInB k | cpOutB k | emulate k | execute k | prepare k | refresh k | flag k =>
    exact decode_encC rfl (fun _ => rfl) k rest
  case pushPs r | popPs r | pushRs r | popRs r => exact decode_encQ_reg rfl (fun _ => rfl) r rest
  case set m | clear m => exact decode_encQ_flag rfl (fun _ => rfl) m rest
  -- what is left has an opcode byte, and a second byte that is an immediate or a literal
  all_goals exact decode_short rfl rfl rest

/-- Settles O1, format by format. -/
theorem decodeOfEncode : Obligations.DecodeOfEncode := decode_encode

/-! ## What bytes that are an encoding decode to -/

theorem decode_of_encode_eq {i : Instr} {bytes : List Byte} (h : encode i = bytes) (rest : List Byte) :
    decode (bytes ++ rest) = .ok (i, rest) := h ▸ decode_encode i rest

/-- In a table of opcodes and instructions, row by row the bytes of the opcode are the encoding. -/
theorem decode_of_table {κ φ : Type} {table : List (κ × φ)} (bytes : κ → List Byte) (instr : φ → Instr)
    (h : table.map (fun p => encode (instr p.2)) = table.map (fun p => bytes p.1)) (rest : List Byte) :
    ∀ p ∈ table, decode (bytes p.1 ++ rest) = .ok (instr p.2, rest) :=
  fun p hp => decode_of_encode_eq (List.map_inj_left.1 h p hp) rest

/-- Settles O4: each format's bytes are the encoding of the instruction named, so O1 says what they decode to. -/
theorem formatsDecodeEveryOperand : Obligations.FormatsDecodeEveryOperand := by
  intro rest
  refine ⟨fun x => decode_of_table (encS · x) (fun i : BitVec 12 → Instr => i x) rfl rest,
    fun k ee => decode_encode (.cBr ee k) rest,
    fun k => decode_of_table (encC · k) (fun i : Cond → Instr => i k) rfl rest,
    fun n k => decode_of_table (encL · n k) (fun i : Word → Cond → Instr => i n k) rfl rest,
    decode_of_table (encQ 0xC0) id rfl rest, decode_of_table (encQ 0xC1) id rfl rest,
    decode_of_table (encQ 0xC2) id rfl rest, fun q hq => ?registers, fun q hq => ?flags,
    decode_of_table ([·, 0x00]) id rfl rest,
    fun n => decode_of_table ([·, n]) (fun i : Byte → Instr => i n) rfl rest⟩
  case registers =>
    have hcode : q.1 = q.2.code := (List.map_inj_left (f := Prod.fst) (g := fun q => q.2.code)).1 rfl q hq
    rw [hcode]
    exact decode_of_table (encQ · q.2.code) (fun i : Reg → Instr => i q.2) rfl rest
  case flags =>
    have hcode : q.1 = q.2.code := (List.map_inj_left (f := Prod.fst) (g := fun q => q.2.code)).1 rfl q hq
    rw [hcode]
    exact decode_of_table (encQ · q.2.code) (fun i : FlagSel → Instr => i q.2) rfl rest

theorem decodeTableWord_of_encode {nbits w : Nat} {i : Instr} (rest : List Byte)
    (h : tableBytes nbits w = encode i ++ rest) : decodeTableWord nbits w = some i := by
  simp [decodeTableWord, h, decode_encode]

/-- Settles O6: the bytes of each word begin with the encoding of its instruction. -/
theorem writtenWordsDecode : Obligations.WrittenWordsDecode :=
  ⟨decodeTableWord_of_encode [0, 0] rfl, decodeTableWord_of_encode [0, 0] rfl,
    decodeTableWord_of_encode [0, 0] rfl, decodeTableWord_of_encode [0, 0] rfl,
    decodeTableWord_of_encode [0, 0] rfl, decodeTableWord_of_encode [] rfl⟩

end Sys2Proof
end

section
/-! PROOFS. That bytes which decode are the encoding of what they decode to (O2, O3). -/

namespace Sys2Proof

open Machine

/-! ## What a decoded second byte is -/

section
variable {b0 b1 : Byte} {i : Instr}

theorem Cond.code_ofCode : ∀ q : BitVec 4, (Cond.ofCode q).code = q := by decide

theorem Reg.code_of_ofCode : ∀ q : BitVec 4, ∀ r ∈ Reg.ofCode q, r.code = q := by decide

theorem FlagSel.code_of_ofCode : ∀ q : BitVec 4, ∀ m ∈ FlagSel.ofCode q, m.code = q := by decide

theorem condField_cases {mk : Cond → Instr} (h : condField b0 b1 mk = .ok i) :
    ∃ k, b1 = 0#4 ++ k.code ∧ i = mk k := by
  unfold condField at h
  split at h
  · next hz =>
    cases h
    exact ⟨_, by rw [Cond.code_ofCode, ← hz, hiNibble_append_loNibble], rfl⟩
  · cases h

theorem groupField_cases {o : Option Instr} (h : groupField b0 b1 o = .ok i) :
    b1 = hiNibble b1 ++ 0#4 ∧ o = some i := by
  unfold groupField at h
  split at h
  · next hz =>
    refine ⟨by rw [← hz, hiNibble_append_loNibble], ?_⟩
    split at h <;> cases h
    rfl
  · cases h

theorem regField_cases {mk : Reg → Instr} (h : regField b0 b1 mk = .ok i) :
    ∃ r, b1 = r.code ++ 0#4 ∧ i = mk r := by
  obtain ⟨hb, hi⟩ := groupField_cases h
  obtain ⟨r, hr, rfl⟩ := Option.map_eq_some_iff.1 hi
  exact ⟨r, by rw [Reg.code_of_ofCode _ r hr, ← hb], rfl⟩

theorem flagField_cases {mk : FlagSel → Instr} (h : flagField b0 b1 mk = .ok i) :
    ∃ m, b1 = m.code ++ 0#4 ∧ i = mk m := by
  obtain ⟨hb, hi⟩ := groupField_cases h
  obtain ⟨m, hm, rfl⟩ := Option.map_eq_some_iff.1 hi
  exact ⟨m, by rw [FlagSel.code_of_ofCode _ m hm, ← hb], rfl⟩

theorem bareField_cases {j : Instr} (h : bareField b0 b1 j = .ok i) : b1 = 0x00#8 ∧ i = j := by
  unfold bareField at h
  split at h
  · next hb => cases h; exact ⟨hb, rfl⟩
  · cases h

end

/-! ## The sub-opcodes of the three groups (R111) -/

theorem encode_groupC0 : ∀ q : BitVec 4, ∀ i ∈ groupC0 q, encode i = encQ 0xC0 q := by decide

theorem encode_groupC1 : ∀ q : BitVec 4, ∀ i ∈ groupC1 q, encode i = encQ 0xC1 q := by decide

theorem encode_groupC2 : ∀ q : BitVec 4, ∀ i ∈ groupC2 q, encode i = encQ 0xC2 q := by decide

/-! ## The decoder, one range of first bytes after the other -/

/-- The bytes that the decoder has looked at: two, and the operand word after a first byte of format L (R106). -/
def instrBytes (b0 b1 : Byte) (n : Word) : List Byte :=
  if isLong b0 then [b0, b1, lowByte n, highByte n] else [b0, b1]

/-- With an opcode nibble that has no first byte of format L there are two bytes. -/
theorem instrBytes_append {op : BitVec 4} (hop : op ∉ [0x6#4, 0x8#4, 0xE#4]) (q : BitVec 4) (b1 : Byte) (n : Word) :
    instrBytes (op ++ q) b1 n = [op ++ q, b1] := by
  rw [instrBytes, isLong_append op q hop, if_neg Bool.false_ne_true]

/-- A byte by the opcode nibble that the decoder has matched. -/
theorem eq_append_of_hiNibble {b : Byte} {h : Nat} (hh : (hiNibble b).toNat = h) :
    b = BitVec.ofNat 4 h ++ loNibble b := by
  rw [← hh, BitVec.ofNat_toNat, BitVec.setWidth_eq, hiNibble_append_loNibble]

/-- A byte by both nibbles that the decoder has matched. -/
theorem eq_of_nibbles {b : Byte} {h l : Nat} (hh : (hiNibble b).toNat = h) (hl : (loNibble b).toNat = l) :
    b = BitVec.ofNat 4 h ++ BitVec.ofNat 4 l := by
  rw [← hl, BitVec.ofNat_toNat, BitVec.setWidth_eq, ← eq_append_of_hiNibble hh]

section
variable {b0 b1 : Byte} {n : Word} {i : Instr}

theorem encode_of_condField {mk : Cond → Instr} (h : condField b0 b1 mk = .ok i)
    (he : ∀ k, encode (mk k) = instrBytes b0 (0#4 ++ k.code) n) : encode i = instrBytes b0 b1 n := by
  obtain ⟨k, rfl, rfl⟩ := condField_cases h
  exact he k

theorem encode_of_groupField {group : BitVec 4 → Option Instr} (h : groupField b0 b1 (group (hiNibble b1)) = .ok i)
    (he : ∀ q, ∀ i ∈ group q, encode i = encQ b0 q) : encode i = [b0, b1] := by
  obtain ⟨hb, hi⟩ := groupField_cases h
  rw [he _ i hi, encQ, ← hb]

theorem encode_of_regField {mk : Reg → Instr} (h : regField b0 b1 mk = .ok i)
    (he : ∀ r, encode (mk r) = encQ b0 r.code) : encode i = [b0, b1] := by
  obtain ⟨r, rfl, rfl⟩ := regField_cases h
  exact he r

theorem encode_of_flagField {mk : FlagSel → Instr} (h : flagField b0 b1 mk = .ok i)
    (he : ∀ m, encode (mk m) = encQ b0 m.code) : encode i = [b0, b1] := by
  obtain ⟨m, rfl, rfl⟩ := flagField_cases h
  exact he m

theorem encode_of_bareField {j : Instr} (h : bareField b0 b1 j = .ok i)
    (he : encode j = [b0, 0x00]) : encode i = [b0, b1] := by
  obtain ⟨rfl, rfl⟩ := bareField_cases h
  exact he

/-- The two bytes of format S, from the opcode nibble and the operand that the decoder reads (R102). -/
theorem encS_operand {op : Nat} (hb : (hiNibble b0).toNat = op) (hop : BitVec.ofNat 4 op ∉ [0x6#4, 0x8#4, 0xE#4]) :
    encS (BitVec.ofNat 4 op) (loNibble b0 ++ b1) = instrBytes b0 b1 n := by
  rw [encS, BitVec.extractLsb'_append_eq_left, BitVec.extractLsb'_append_eq_right, ← instrBytes_append hop,
    ← eq_append_of_hiNibble hb]

/-- The two bytes of format B (R107). -/
theorem encode_cBr (hb : (hiNibble b0).toNat = 0x9) :
    encode (.cBr b1 (Cond.ofCode (loNibble b0))) = instrBytes b0 b1 n := by
  rw [encode, Cond.code_ofCode, ← instrBytes_append (by decide), ← eq_append_of_hiNibble hb]

theorem encode_of_decode67 (h : decode67 b0 b1 n = .ok i) : encode i = instrBytes b0 b1 n := by
  unfold decode67 at h
  split at h
  case h_1 hb =>
    obtain rfl := BitVec.eq_of_toNat_eq (y := 0x60#8) hb
    exact encode_of_condField h fun _ => rfl
  case h_2 hb =>
    obtain rfl := BitVec.eq_of_toNat_eq (y := 0x70#8) hb
    cases h; rfl
  case h_3 hb =>
    obtain rfl := BitVec.eq_of_toNat_eq (y := 0x71#8) hb
    cases h; rfl
  case h_4 => cases h

theorem encode_of_decode8 (hb : (hiNibble b0).toNat = 0x8) (h : decode8 b0 b1 n = .ok i) :
    encode i = instrBytes b0 b1 n := by
  unfold decode8 at h
  split at h
  case h_15 => cases h
  all_goals
    next hl =>
    obtain rfl := eq_of_nibbles hb hl
    exact encode_of_condField h fun _ => rfl

theorem encode_of_decodeA (hb : (hiNibble b0).toNat = 0xA) (h : decodeA b0 b1 = .ok i) :
    encode i = instrBytes b0 b1 n := by
  unfold decodeA at h
  split at h <;> cases h
  all_goals
    next hl =>
    obtain rfl := eq_of_nibbles hb hl
    rfl

theorem encode_of_decodeB (hb : (hiNibble b0).toNat = 0xB) (h : decodeB b0 b1 = .ok i) :
    encode i = instrBytes b0 b1 n := by
  unfold decodeB at h
  split at h <;> cases h
  all_goals
    next hl =>
    obtain rfl := eq_of_nibbles hb hl
    rfl

theorem encode_of_decodeC (hb : (hiNibble b0).toNat = 0xC) (h : decodeC b0 b1 = .ok i) :
    encode i = instrBytes b0 b1 n := by
  unfold decodeC at h
  split at h
  case h_1 hl =>
    obtain rfl := eq_of_nibbles hb hl
    exact encode_of_groupField h encode_groupC0
  case h_2 hl =>
    obtain rfl := eq_of_nibbles hb hl
    exact encode_of_groupField h encode_groupC1
  case h_3 hl =>
    obtain rfl := eq_of_nibbles hb hl
    exact encode_of_groupField h encode_groupC2
  case h_4 => cases h

theorem encode_of_decodeD (hb : (hiNibble b0).toNat = 0xD) (h : decodeD b0 b1 = .ok i) :
    encode i = instrBytes b0 b1 n := by
  unfold decodeD at h
  split at h
  case h_1 hl | h_2 hl | h_3 hl | h_4 hl =>
    obtain rfl := eq_of_nibbles hb hl
    exact encode_of_regField h fun _ => rfl
  case h_5 hl | h_6 hl =>
    obtain rfl := eq_of_nibbles hb hl
    exact encode_of_flagField h fun _ => rfl
  case h_7 => cases h

theorem encode_of_decodeE (hb : (hiNibble b0).toNat = 0xE) (h : decodeE b0 b1 n = .ok i) :
    encode i = instrBytes b0 b1 n := by
  unfold decodeE at h
  split at h
  case h_9 => cases h
  all_goals
    next hl =>
    obtain rfl := eq_of_nibbles hb hl
    exact encode_of_condField h fun _ => rfl

theorem encode_of_decodeF (hb : (hiNibble b0).toNat = 0xF) (h : decodeF b0 b1 = .ok i) :
    encode i = instrBytes b0 b1 n := by
  unfold decodeF at h
  split at h
  case h_10 => cases h
  case h_5 hl | h_6 hl | h_7 hl | h_8 hl =>
    obtain rfl := eq_of_nibbles hb hl
    exact encode_of_bareField h rfl
  all_goals
    next hl =>
    obtain rfl := eq_of_nibbles hb hl
    exact encode_of_condField h fun _ => rfl

/-- What the decoder looked at is the encoding of what it found: no bit is dropped. -/
theorem encode_of_decodeWith (h : decodeWith b0 b1 n = .ok i) : encode i = instrBytes b0 b1 n := by
  unfold decodeWith at h
  split at h
  case h_1 hb | h_2 hb | h_3 hb | h_4 hb | h_5 hb | h_6 hb =>
    cases h
    exact encS_operand hb (by decide)
  case h_7 | h_8 => exact encode_of_decode67 h
  case h_9 hb => exact encode_of_decode8 hb h
  case h_10 hb =>
    cases h
    exact encode_cBr hb
  case h_11 hb => exact encode_of_decodeA hb h
  case h_12 hb => exact encode_of_decodeB hb h
  case h_13 hb => exact encode_of_decodeC hb h
  case h_14 hb => exact encode_of_decodeD hb h
  case h_15 hb => exact encode_of_decodeE hb h
  case h_16 =>
    refine encode_of_decodeF ?_ h
    have := (hiNibble b0).isLt
    simp only [imp_false] at *
    omega

/-- All the decoder can answer: an instruction of two bytes, or one of four with its operand word (R106). -/
theorem decode_cases {bytes rest : List Byte} (h : decode bytes = .ok (i, rest)) :
    (∃ b0 b1, isLong b0 = false ∧ bytes = b0 :: b1 :: rest ∧ decodeWith b0 b1 0#16 = .ok i)
    ∨ ∃ b0 b1 b2 b3, isLong b0 = true ∧ bytes = b0 :: b1 :: b2 :: b3 :: rest
        ∧ decodeWith b0 b1 (wordOfBytes b2 b3) = .ok i := by
  have hmap {x : Except DecodeError Instr} {tail : List Byte} (hx : x.map (·, tail) = .ok (i, rest)) :
      x = .ok i ∧ tail = rest := by
    cases x with
    | error e => cases hx
    | ok j => cases hx; exact ⟨rfl, rfl⟩
  unfold decode at h
  split at h
  · next b0 b1 tail =>
    split at h
    · next hl =>
      split at h
      · obtain ⟨hd, rfl⟩ := hmap h
        exact .inr ⟨_, _, _, _, hl, rfl, hd⟩
      · cases h
    · next hl =>
      obtain ⟨hd, rfl⟩ := hmap h
      exact .inl ⟨_, _, Bool.eq_false_iff.2 hl, rfl, hd⟩
  · cases h

end

/-- Settles O2: the bytes the decoder looked at are the encoding, the others are the rest. -/
theorem encodeOfDecode : Obligations.EncodeOfDecode := by
  intro bytes i rest h
  rcases decode_cases h with ⟨b0, b1, hl, rfl, hd⟩ | ⟨b0, b1, b2, b3, hl, rfl, hd⟩
  · simp [encode_of_decodeWith hd, instrBytes, hl]
  · simp [encode_of_decodeWith hd, instrBytes, hl, lowByte_wordOfBytes, highByte_wordOfBytes]

/-- R106: the first bytes of format L. -/
theorem isLong_iff (b : Byte) : isLong b = true ↔
    b ∈ [0x60#8, 0x80#8, 0x81#8, 0x82#8, 0x83#8, 0x84#8, 0x85#8, 0xE2#8, 0xE3#8, 0xE4#8, 0xE5#8] := by
  simp only [isLong, BitVec.le_def, BitVec.toNat_ofNat, Nat.reducePow, Nat.reduceMod, Bool.or_eq_true, beq_iff_eq,
    ← BitVec.toNat_inj, Bool.and_eq_true, decide_eq_true_eq, List.mem_cons, List.not_mem_nil, or_false]
  omega

/-- Settles O3: the two lengths of `decode_cases`, told apart by `isLong`. -/
theorem lengthToldByFirstByte : Obligations.LengthToldByFirstByte := by
  intro b0 bytes i rest h
  simp only [← isLong_iff]
  rcases decode_cases h with ⟨b0, b1, hl, hb, -⟩ | ⟨b0, b1, b2, b3, hl, hb, -⟩ <;> cases hb <;> simp [hl]

end Sys2Proof
end

section
/-! PROOFS. Which bytes the decoder refuses, and the step that fetches them (O7). -/

namespace Sys2Proof.Machine

/-! ## First bytes -/

/-- The 76 first bytes that begin no instruction (R113). -/
def undefinedOpcodes : List Nat :=
  [0x61, 0x62, 0x63, 0x64, 0x65, 0x66, 0x67, 0x68, 0x69, 0x6A, 0x6B, 0x6C, 0x6D, 0x6E, 0x6F,
   0x72, 0x73, 0x74, 0x75, 0x76, 0x77, 0x78, 0x79, 0x7A, 0x7B, 0x7C, 0x7D, 0x7E, 0x7F, 0x86, 0x87,
   0xA9, 0xAD, 0xAF, 0xB9, 0xBC, 0xBD, 0xBF,
   0xC3, 0xC4, 0xC5, 0xC6, 0xC7, 0xC8, 0xC9, 0xCA, 0xCB, 0xCC, 0xCD, 0xCE, 0xCF,
   0xD6, 0xD7, 0xD8, 0xD9, 0xDA, 0xDB, 0xDC, 0xDD, 0xDE, 0xDF, 0xE0, 0xE1, 0xE6, 0xE7, 0xE8, 0xE9, 0xEE, 0xEF,
   0xF3, 0xF4, 0xF5, 0xF7, 0xF9, 0xFA, 0xFE]

theorem decodeWith_undefined (b1 : Byte) (n : Word) : ∀ m ∈ undefinedOpcodes,
    decodeWith (BitVec.ofNat 8 m) b1 n = .error (.undefinedOpcode (BitVec.ofNat 8 m)) :=
  List.map_inj_left.1 rfl

theorem isLong_undefined : ∀ m ∈ undefinedOpcodes, isLong (BitVec.ofNat 8 m) = false := by decide

/-- Every other first byte begins an instruction: with #00 after it, for one. -/
theorem decodeWith_defined (b0 : Byte) (h : b0.toNat ∉ undefinedOpcodes) :
    ∃ i, decodeWith b0 0x00#8 0#16 = .ok i := by
  have hdefined : ∀ b : Byte, b.toNat ∈ undefinedOpcodes ∨ (decodeWith b 0x00#8 0#16).toBool = true := by decide
  have hb := (hdefined b0).resolve_left h
  revert hb
  cases decodeWith b0 0x00#8 0#16 with
  | error e => exact fun hb => absurd hb Bool.false_ne_true
  | ok i => exact fun _ => ⟨i, rfl⟩

theorem exists_decode_of_defined (b0 : Byte) (h : b0.toNat ∉ undefinedOpcodes) :
    ∃ bytes i, decode (b0 :: bytes) = .ok (i, []) := by
  obtain ⟨i, hd⟩ := decodeWith_defined b0 h
  cases hl : isLong b0 with
  | false => exact ⟨[0x00], i, decode_short hl hd []⟩
  | true => exact ⟨[0x00, 0x00, 0x00], i, decode_long hl hd []⟩

/-! ## Fields of the second byte (R114) -/

section
variable {b0 b1 : Byte}

theorem condField_undefined (mk : Cond → Instr) (h : hiNibble b1 ≠ 0#4) :
    condField b0 b1 mk = .error (.undefinedField b0 b1) := if_neg h

theorem groupField_undefined (o : Option Instr) (h : loNibble b1 ≠ 0#4) :
    groupField b0 b1 o = .error (.undefinedField b0 b1) := if_neg h

theorem groupField_none : groupField b0 b1 none = .error (.undefinedField b0 b1) := by
  unfold groupField
  split <;> rfl

theorem bareField_undefined (i : Instr) (h : b1 ≠ 0x00#8) : bareField b0 b1 i = .error (.undefinedField b0 b1) :=
  if_neg h

theorem regField_undefined (mk : Reg → Instr) (h : 0xA#4 ≤ hiNibble b1) :
    regField b0 b1 mk = .error (.undefinedField b0 b1) := by
  have hnone : ∀ q : BitVec 4, 0xA#4 ≤ q → Reg.ofCode q = none := by decide
  rw [regField, hnone _ h]
  exact groupField_none

theorem flagField_undefined (mk : FlagSel → Instr) (h : 0x8#4 ≤ hiNibble b1) :
    flagField b0 b1 mk = .error (.undefinedField b0 b1) := by
  have hnone : ∀ q : BitVec 4, 0x8#4 ≤ q → FlagSel.ofCode q = none := by decide
  rw [flagField, hnone _ h]
  exact groupField_none

end

theorem groupC1_undefined : ∀ q : BitVec 4, 0xA#4 ≤ q → groupC1 q = none := by decide

theorem groupC2_undefined : ∀ q : BitVec 4, q ∉ [0x0#4, 0x1#4, 0x2#4, 0x3#4, 0x9#4] → groupC2 q = none := by decide

/-! ## Which field a first byte has -/

section
variable {b0 : Byte} (b1 : Byte) (n : Word)

/-- The first bytes of formats L and C (R108, R109). -/
theorem decodeWith_cond (h : b0 ∈ [0x60#8, 0x80#8, 0x81#8, 0x82#8, 0x83#8, 0x84#8, 0x85#8, 0xE2#8, 0xE3#8, 0xE4#8,
      0xE5#8, 0x88#8, 0x89#8, 0x8A#8, 0x8B#8, 0x8C#8, 0x8D#8, 0x8E#8, 0x8F#8, 0xEA#8, 0xEB#8, 0xEC#8, 0xED#8, 0xF0#8,
      0xF1#8, 0xF2#8, 0xF6#8, 0xFF#8]) : ∃ mk, decodeWith b0 b1 n = condField b0 b1 mk := by
  fin_cases h <;> exact ⟨_, rfl⟩

/-- The first bytes of formats G and Q (R111, R112). -/
theorem decodeWith_group (h : b0 ∈ [0xC0#8, 0xC1#8, 0xC2#8, 0xD0#8, 0xD1#8, 0xD2#8, 0xD3#8, 0xD4#8, 0xD5#8]) :
    ∃ o, decodeWith b0 b1 n = groupField b0 b1 o := by
  fin_cases h <;> exact ⟨_, rfl⟩

/-- The first bytes of format Z (R115). -/
theorem decodeWith_bare (h : b0 ∈ [0xF8#8, 0xFB#8, 0xFC#8, 0xFD#8]) :
    ∃ i, decodeWith b0 b1 n = bareField b0 b1 i := by
  fin_cases h <;> exact ⟨_, rfl⟩

/-- The first bytes of format Q that name a register (R112). -/
theorem decodeWith_reg (h : b0 ∈ [0xD0#8, 0xD1#8, 0xD2#8, 0xD3#8]) :
    ∃ mk, decodeWith b0 b1 n = regField b0 b1 mk := by
  fin_cases h <;> exact ⟨_, rfl⟩

/-- The first bytes of format Q that name a flag (R112). -/
theorem decodeWith_flag (h : b0 ∈ [0xD4#8, 0xD5#8]) : ∃ mk, decodeWith b0 b1 n = flagField b0 b1 mk := by
  fin_cases h <;> exact ⟨_, rfl⟩

end

/-! ## What the decoder refuses -/

section
variable {b0 b1 : Byte} {e : DecodeError}

theorem decode_short_error (hl : isLong b0 = false) (hd : decodeWith b0 b1 0#16 = .error e) (rest : List Byte) :
    decode (b0 :: b1 :: rest) = .error e := by
  simp [decode, hl, hd, Except.map]

/-- Where the operand word does not matter the length does not. -/
theorem decode_error (hd : ∀ n, decodeWith b0 b1 n = .error e) (b2 b3 : Byte) (rest : List Byte) :
    decode (b0 :: b1 :: b2 :: b3 :: rest) = .error e := by
  simp [decode, hd, Except.map]

theorem decode_undefinedOpcode (h : b0.toNat ∈ undefinedOpcodes) (rest : List Byte) :
    decode (b0 :: b1 :: rest) = .error (.undefinedOpcode b0) := by
  have hd := decodeWith_undefined b1 0#16 _ h
  have hl := isLong_undefined _ h
  rw [BitVec.ofNat_toNat, BitVec.setWidth_eq] at hd hl
  exact decode_short_error hl hd rest

end

/-! ## The step -/

theorem step_of_decode_error {s u : State} {bytes : List Byte} {e : DecodeError} (hq : s.quiet)
    (hf : fetchBytes s.pastBoundary = .ok (bytes, u)) (hd : decode bytes = .error e) :
    step s = .refused (.undefinedEncoding e) := by
  simp [step_of_quiet hq, runInstr, fetch, hf, hd]

/-- Settles O7: what the decoder refuses, then the two fetches that lead there. -/
theorem undefinedEncodingsAreRefused : Obligations.UndefinedEncodingsAreRefused := by
  refine ⟨rfl, fun b0 b1 rest h => decode_undefinedOpcode h rest, exists_decode_of_defined,
    fun b0 b1 b2 b3 rest h => decode_error (fun n => ?field) b2 b3 rest, fun s e hq hw hl hd => ?short,
    fun s hq hw hl hw2 hb => ?long⟩
  case field =>
    rcases h with ⟨h0, h1⟩ | ⟨h0, h1⟩ | ⟨h0, h1⟩ | ⟨rfl, h1⟩ | ⟨rfl, h1⟩ | ⟨h0, h1⟩ | ⟨h0, h1⟩
    · obtain ⟨mk, hd⟩ := decodeWith_cond b1 n h0
      exact hd.trans (condField_undefined mk h1)
    · obtain ⟨o, hd⟩ := decodeWith_group b1 n h0
      exact hd.trans (groupField_undefined o h1)
    · obtain ⟨i, hd⟩ := decodeWith_bare b1 n h0
      exact hd.trans (bareField_undefined i h1)
    · change groupField 0xC1#8 b1 (groupC1 (hiNibble b1)) = _
      rw [groupC1_undefined (hiNibble b1) h1, groupField_none]
    · change groupField 0xC2#8 b1 (groupC2 (hiNibble b1)) = _
      rw [groupC2_undefined (hiNibble b1) h1, groupField_none]
    · obtain ⟨mk, hd⟩ := decodeWith_reg b1 n h0
      exact hd.trans (regField_undefined mk h1)
    · obtain ⟨mk, hd⟩ := decodeWith_flag b1 n h0
      exact hd.trans (flagField_undefined mk h1)
  case short => exact step_of_decode_error hq (fetchBytes_short (s := s.pastBoundary) hw hl) hd
  case long =>
    refine step_of_decode_error hq (fetchBytes_long (s := s.pastBoundary) hw hl hw2) (decode_error (fun n => ?_) _ _ _)
    obtain ⟨mk, hd⟩ := decodeWith_cond _ n (List.mem_append_left _ ((isLong_iff _).1 hl))
    exact hd.trans (condField_undefined mk hb)

end Sys2Proof.Machine
end

section
/-! PROOFS. The assembler (O5): each code generator against the format it builds, and the displacements it patches in. -/

namespace Sys2Proof

/-! ## The code generators (R121, R125) -/

/-- The mask of `sJCODE` keeps the first nibble of the operand. -/
theorem highByte_and_mask (x : BitVec 12) : highByte (x.setWidth 16) &&& 0x0F = 0#4 ++ x.extractLsb' 8 4 := by
  have hmask (m : Nat) : m &&& 15 = m % 16 := Nat.and_two_pow_sub_one_eq_mod m 4
  have hfits : x.toNat % 65536 = x.toNat := Nat.mod_eq_of_lt (x.isLt.trans (by decide))
  apply BitVec.eq_of_toNat_eq
  rw [BitVec.toNat_append]
  simp [highByte, hmask, hfits, Nat.shiftRight_eq_div_pow]

/-- `sJCODE` with an operand that fits builds format S. -/
theorem sjCode_setWidth (op : BitVec 4) (x : BitVec 12) : sjCode (x.setWidth 16) (op ++ 0#4) = encS op x := by
  have hlow : lowByte (x.setWidth 16) = x.extractLsb' 0 8 := BitVec.extractLsb'_setWidth_of_le (by decide)
  rw [sjCode, encS, highByte_and_mask, hlow, BitVec.or_append, BitVec.or_zero, BitVec.zero_or]

theorem lowByte_setWidth_code : ∀ q : BitVec 4, lowByte (q.setWidth 16 &&& 0x000F) = 0#4 ++ q := by decide

theorem branch_or_code : ∀ q : BitVec 4, 0x90 ||| lowByte (q.setWidth 16) = 0x9#4 ++ q := by decide

/-- `ccCODE` builds format C. -/
theorem ccCode_asmConst (op : Byte) (k : Cond) : ccCode k.asmConst op = encC op k := by
  rw [ccCode, Cond.asmConst, lowByte_setWidth_code, encC]

/-- `ccCODE` and `$dep` build format L. -/
theorem ccCode_append_dep (op : Byte) (n : Word) (k : Cond) : ccCode k.asmConst op ++ dep n = encL op n k := by
  rw [ccCode_asmConst]
  rfl

/-- `cBR` builds format B. -/
theorem cbrCode_asmConst (ee : Byte) (k : Cond) : cbrCode ee k.asmConst = encode (.cBr ee k) := by
  rw [cbrCode, Cond.asmConst, branch_or_code, encode]

/-- What the assembler deposits is the encoding. -/
theorem assemble_eq_encode (i : Instr) : assemble i = encode i := by
  cases i
  case sJmp x => exact sjCode_setWidth 0x0 x
  case sJsr x => exact sjCode_setWidth 0x1 x
  case sLoad x => exact sjCode_setWidth 0x2 x
  case sStore x => exact sjCode_setWidth 0x3 x
  case sBr x => exact sjCode_setWidth 0x4 x
  case sBsr x => exact sjCode_setWidth 0x5 x
  case cBr ee k => exact cbrCode_asmConst ee k
  case cNLoad n k | cJsr n k | cJmp n k | cLoad n k | cStore n k | cLoadB n k | cStoreB n k | cIn n k | cOut n k
      | cInB n k | cOutB n k =>
    exact ccCode_append_dep _ n k
  case cpJsr k | cpJmp k | cpLoad k | cpStore k | cpLoadB k | cpStoreB k | cRts k | cpBsr k | cpIn k | cpOut k
      | cpInB k | cpOutB k | emulate k | execute k | prepare k | refresh k | flag k =>
    exact ccCode_asmConst _ k
  -- what is left is deposited as literal bytes, or as an opcode byte and the operand's byte
  all_goals rfl

/-! ## Displacements (R126) -/

theorem setWidth_signExtend {w v : Nat} (x : BitVec w) (h : w ≤ v) : (x.signExtend v).setWidth w = x := by
  rw [BitVec.signExtend_eq_append_of_le h]
  rw [BitVec.setWidth_cast, BitVec.setWidth_append_eq_right]

theorem displacement_of_target (at0 d : Word) : at0 + 2#16 + d - (at0 + 2#16) = d := by
  rw [BitVec.add_comm, BitVec.add_sub_cancel]

/-- Settles O5: every instruction's generator, NEXT, and the two kinds of displacement. -/
theorem assemblerBuildsTheEncoding : Obligations.AssemblerBuildsTheEncoding :=
  ⟨assemble_eq_encode, rfl, fun at0 ee efg => ⟨by
    rw [fixBranch, displacement_of_target, setWidth_signExtend ee (by decide)], by
    rw [fixShort, displacement_of_target, setWidth_signExtend efg (by decide)]⟩⟩

end Sys2Proof
end

section
/-! PROOFS. The arithmetic, logical, shift and byte instructions (O24 to O28, O30 to O34): what the unit computes, said in
numbers, and the three shapes in which a result is put away. -/

namespace Sys2Proof.Machine

/-! ## Where a result goes (R144) -/

section
variable {i : Instr} {s : State} {r : AluResult}

theorem completes_replaceP0 (he : exec i s = complete s (replaceP0 r s)) : Completes i s (s.withP0Result r) nowhere :=
  completes_nowhere he rfl rfl

theorem completes_replaceP0_of_eq {q : AluResult} (hq : r = q) (he : exec i s = complete s (replaceP0 r s)) :
    Completes i s (s.withP0Result q) nowhere := hq ▸ completes_replaceP0 he

theorem completes_flagsOnly (he : exec i s = complete s (flagsOnly r s)) :
    Completes i s (s.withFlagResult r) nowhere :=
  completes_nowhere he rfl rfl

theorem popReplace_of_ready (hr : s.popReady .param) : popReplace r s = .ok ((s.afterPop .param).withP0Result r) := by
  rw [popReplace, pop_of_ready hr]
  rfl

theorem completes_popReplace (he : exec i s = complete s (popReplace r s)) (hr : s.popReady .param) :
    Completes i s ((s.afterPop .param).withP0Result r) nowhere :=
  completes_nowhere he (popReplace_of_ready hr) (afterPop_mem s .param)

end

/-! ## What a result is -/

theorem resultOf_z_iff (v : Word) (c o : Bool) : (resultOf v c o).z = true ↔ v.toNat = 0 := by
  simp [resultOf, ← BitVec.toNat_inj]

theorem resultOf_s_iff (v : Word) (c o : Bool) : (resultOf v c o).s = true ↔ 32768 ≤ v.toNat := by
  simp [resultOf, BitVec.msb_eq_decide]

theorem msb_eq_iff (a b : Word) : a.msb = b.msb ↔ (32768 ≤ a.toNat ↔ 32768 ≤ b.toNat) := by
  rw [BitVec.msb_eq_decide, BitVec.msb_eq_decide, decide_eq_decide]

/-! ## Addition (R140) -/

theorem add_value_toNat (a b : Word) (c : Bool) :
    (add a b c).value.toNat = (a.toNat + b.toNat + c.toNat) % 65536 := BitVec.toNat_ofNat _ 16

/-- Operands of one sign and a result of the other, said with the signed sum. -/
theorem add_o_iff (a b : Word) (c : Bool) :
    (add a b c).o = true ↔ a.toInt + b.toInt + c.toNat < -32768 ∨ 32767 < a.toInt + b.toInt + c.toNat := by
  have ha := a.isLt
  have hb := b.isLt
  have hc := Bool.toNat_lt c
  have hr := add_value_toNat a b c
  have ho : (add a b c).o = true ↔ a.msb = b.msb ∧ (add a b c).value.msb ≠ a.msb := by simp [add, resultOf]
  rw [ho, ne_eq, msb_eq_iff, msb_eq_iff, hr, BitVec.toInt_eq_toNat_cond, BitVec.toInt_eq_toNat_cond]
  omega

theorem isSum_add (a b : Word) (c : Bool) : IsSum a b c (add a b c) :=
  ⟨add_value_toNat a b c, by simp [add, resultOf], resultOf_z_iff _ _ _, resultOf_s_iff _ _ _, add_o_iff a b c⟩

/-! ## Subtraction (R141, R142) -/

theorem sub_value_toNat (a b : Word) (c : Bool) :
    (sub a b c).value.toNat = (a.toNat + 131072 - b.toNat - c.toNat) % 65536 := by
  have hc := Bool.toNat_lt c
  have hb := b.isLt
  simp only [sub, resultOf, BitVec.toNat_sub, BitVec.toNat_ofNat]
  omega

/-- The signed difference out of range, said with the sign bits. -/
theorem sub_o_iff (a b : Word) (c : Bool) :
    (sub a b c).o = true ↔ a.msb ≠ b.msb ∧ (sub a b c).value.msb ≠ a.msb := by
  have ha := a.isLt
  have hb := b.isLt
  have hc := Bool.toNat_lt c
  have hr := sub_value_toNat a b c
  have ho : (sub a b c).o = true ↔ a.toInt - b.toInt - c.toNat < -32768 ∨ 32767 < a.toInt - b.toInt - c.toNat := by
    simp [sub, resultOf]
  rw [ho, ne_eq, ne_eq, msb_eq_iff, msb_eq_iff, hr, BitVec.toInt_eq_toNat_cond, BitVec.toInt_eq_toNat_cond]
  omega

theorem isDifference_sub (a b : Word) (c : Bool) : IsDifference a b c (sub a b c) :=
  ⟨sub_value_toNat a b c, by simp [sub, resultOf], resultOf_z_iff _ _ _, resultOf_s_iff _ _ _, sub_o_iff a b c⟩

/-! ## Logical results (R143) and masks (R155) -/

theorem isLogical_logic (v : Word) : IsLogical v (logic v) :=
  ⟨rfl, rfl, rfl, resultOf_z_iff v _ _, resultOf_s_iff v _ _⟩

theorem maskOf_value_toNat (m : BitVec 4) : (maskOf m).value.toNat = 2 ^ m.toNat := by
  have hm : 2 ^ m.toNat < 2 ^ 16 := Nat.pow_lt_pow_right (by decide) m.isLt
  have hv : (maskOf m).value = 1#16 <<< m.toNat := rfl
  rw [hv, BitVec.toNat_shiftLeft, BitVec.toNat_ofNat, Nat.shiftLeft_eq, Nat.one_mod, Nat.one_mul, Nat.mod_eq_of_lt hm]

theorem maskOf_z (m : BitVec 4) : (maskOf m).z = false := by
  have hz : (maskOf m).z = true ↔ 2 ^ m.toNat = 0 := by rw [← maskOf_value_toNat]; exact resultOf_z_iff _ _ _
  simpa using hz

theorem maskOf_s_iff (m : BitVec 4) : (maskOf m).s = true ↔ m.toNat = 15 := by
  have hm := m.isLt
  have hs : (maskOf m).s = true ↔ 2 ^ 15 ≤ 2 ^ m.toNat := by rw [← maskOf_value_toNat]; exact resultOf_s_iff _ _ _
  rw [hs, Nat.pow_le_pow_iff_right (by decide)]
  omega

/-- The mask a nibble selects, from the number it was taken of. -/
theorem maskOf_extract {w : Nat} (x : BitVec w) :
    (maskOf (x.extractLsb' 0 4)).value.toNat = 2 ^ (x.toNat % 16)
      ∧ (maskOf (x.extractLsb' 0 4)).c = false ∧ (maskOf (x.extractLsb' 0 4)).o = false
      ∧ (maskOf (x.extractLsb' 0 4)).z = false
      ∧ ((maskOf (x.extractLsb' 0 4)).s = true ↔ x.toNat % 16 = 15) := by
  have hx : (x.extractLsb' 0 4).toNat = x.toNat % 16 := by simp
  rw [← hx]
  exact ⟨maskOf_value_toNat _, rfl, rfl, maskOf_z _, maskOf_s_iff _⟩

/-! ## Results as numbers: complement, negation, shifts -/

/-- The result `v` with O reset, Z and S told from the number. -/
def AluResult.ofNat (v : Nat) (carry : Bool) : AluResult :=
  { value := BitVec.ofNat 16 v, c := carry, z := decide (v = 0), s := decide (32768 ≤ v), o := false }

theorem resultOf_eq_ofNat {r : Word} {v : Nat} {c carry : Bool} (hv : r.toNat = v) (hc : c = carry) :
    resultOf r c false = AluResult.ofNat v carry := by
  subst hv hc
  have hz : (r == 0#16) = decide (r.toNat = 0) := Bool.eq_iff_iff.2 (by simp [← BitVec.toNat_inj])
  simp [resultOf, AluResult.ofNat, hz, BitVec.msb_eq_decide]

theorem complement_eq (a : Word) : complement a = AluResult.ofNat (65535 - a.toNat) (a != 0x0001#16) :=
  resultOf_eq_ofNat BitVec.toNat_not rfl

theorem negate_eq (a : Word) :
    negate a = AluResult.ofNat ((65536 - a.toNat) % 65536) (decide (a.toNat ≠ 0)) := by
  refine resultOf_eq_ofNat (by simp) ?_
  exact Bool.eq_iff_iff.2 (by simp [← BitVec.toNat_inj])

theorem bit0_eq_low (a : Word) : a.getLsbD 0 = decide (a.toNat % 2 = 1) := Nat.testBit_zero a.toNat

/-- The word moved up by one, `b` coming in below. -/
theorem toNat_shift_up (a : Word) (b : Bool) :
    (a.extractLsb' 0 15 ++ BitVec.ofBool b).toNat = 2 * a.toNat % 65536 + b.toNat := by
  rw [toNat_append_eq, BitVec.extractLsb'_toNat, BitVec.toNat_ofBool, Nat.shiftRight_zero]
  omega

/-- The word moved down by one, `b` coming in above. -/
theorem toNat_shift_down (a : Word) (b : Bool) :
    (BitVec.ofBool b ++ a.extractLsb' 1 15).toNat = a.toNat / 2 + 32768 * b.toNat := by
  have ha := a.isLt
  rw [toNat_append_eq, BitVec.extractLsb'_toNat, BitVec.toNat_ofBool, Nat.shiftRight_eq_div_pow]
  omega

theorem shiftLeft_eq (a : Word) :
    shiftLeft a = AluResult.ofNat (2 * a.toNat % 65536) (decide (32768 ≤ a.toNat)) :=
  resultOf_eq_ofNat (toNat_shift_up a false) (BitVec.msb_eq_decide a)

theorem shiftRight_eq (a : Word) : shiftRight a = AluResult.ofNat (a.toNat / 2) (decide (a.toNat % 2 = 1)) :=
  resultOf_eq_ofNat (toNat_shift_down a false) (bit0_eq_low a)

theorem shiftRightArith_eq (a : Word) :
    shiftRightArith a
      = AluResult.ofNat (a.toNat / 2 + if decide (32768 ≤ a.toNat) then 32768 else 0) (decide (a.toNat % 2 = 1)) := by
  refine resultOf_eq_ofNat ?_ (bit0_eq_low a)
  rw [toNat_shift_down, BitVec.msb_eq_decide]
  cases decide (32768 ≤ a.toNat) <;> rfl

theorem rotateLeft_eq (a : Word) (c : Bool) :
    rotateLeft a c = AluResult.ofNat (2 * a.toNat % 65536 + c.toNat) (decide (32768 ≤ a.toNat)) :=
  resultOf_eq_ofNat (toNat_shift_up a c) (BitVec.msb_eq_decide a)

theorem rotateRight_eq (a : Word) (c : Bool) :
    rotateRight a c = AluResult.ofNat (a.toNat / 2 + 32768 * c.toNat) (decide (a.toNat % 2 = 1)) :=
  resultOf_eq_ofNat (toNat_shift_down a c) (bit0_eq_low a)

theorem exchangeBytes_eq (a : Word) : exchangeBytes a = BitVec.ofNat 16 (a.toNat % 256 * 256 + a.toNat / 256) := by
  have ha := a.isLt
  have hlow : (lowByte a).toNat = a.toNat % 256 := BitVec.extractLsb'_toNat 0 8 a
  have hhigh : (highByte a).toNat = a.toNat / 256 := by
    rw [highByte, BitVec.extractLsb'_toNat, Nat.shiftRight_eq_div_pow]
    omega
  have hswap : (exchangeBytes a).toNat = a.toNat % 256 * 256 + a.toNat / 256 := by
    rw [← hlow, ← hhigh]
    exact toNat_append_eq (lowByte a) (highByte a)
  rw [← hswap, BitVec.ofNat_toNat, BitVec.setWidth_eq]

/-! ## The obligations -/

/-- Settles O24: the sum replaces P0. -/
theorem addImmediateForms : Obligations.AddImmediateForms := fun _ _ =>
  ⟨⟨_, isSum_add _ _ _, completes_replaceP0 rfl⟩, ⟨_, isSum_add _ _ _, completes_replaceP0 rfl⟩,
    ⟨_, isSum_add _ _ _, completes_replaceP0 rfl⟩, ⟨_, isSum_add _ _ _, completes_replaceP0 rfl⟩⟩

/-- Settles O25: one entry is popped, then the sum replaces the top. -/
theorem addStackForms : Obligations.AddStackForms := fun _ hr =>
  ⟨⟨_, isSum_add _ _ _, completes_popReplace rfl hr⟩, ⟨_, isSum_add _ _ _, completes_popReplace rfl hr⟩⟩

/-- Settles O26: the difference replaces P0. -/
theorem subtractImmediateForms : Obligations.SubtractImmediateForms := fun _ _ =>
  ⟨⟨_, isDifference_sub _ _ _, completes_replaceP0 rfl⟩, ⟨_, isDifference_sub _ _ _, completes_replaceP0 rfl⟩,
    ⟨_, isDifference_sub _ _ _, completes_replaceP0 rfl⟩, ⟨_, isDifference_sub _ _ _, completes_replaceP0 rfl⟩,
    ⟨_, isDifference_sub _ _ _, completes_replaceP0 rfl⟩, ⟨_, isDifference_sub _ _ _, completes_replaceP0 rfl⟩,
    ⟨_, isDifference_sub _ _ _, completes_replaceP0 rfl⟩, ⟨_, isDifference_sub _ _ _, completes_replaceP0 rfl⟩⟩

/-- Settles O27: one entry is popped, then the difference replaces the top. -/
theorem subtractStackForms : Obligations.SubtractStackForms := fun _ hr =>
  ⟨⟨_, isDifference_sub _ _ _, completes_popReplace rfl hr⟩, ⟨_, isDifference_sub _ _ _, completes_popReplace rfl hr⟩,
    ⟨_, isDifference_sub _ _ _, completes_popReplace rfl hr⟩, ⟨_, isDifference_sub _ _ _, completes_popReplace rfl hr⟩⟩

/-- Settles O28: only the flags of the difference are kept. -/
theorem compareForms : Obligations.CompareForms := fun _ _ =>
  ⟨⟨_, isDifference_sub _ _ _, completes_flagsOnly rfl⟩, ⟨_, isDifference_sub _ _ _, completes_flagsOnly rfl⟩,
    ⟨_, isDifference_sub _ _ _, completes_flagsOnly rfl⟩, ⟨_, isDifference_sub _ _ _, completes_flagsOnly rfl⟩,
    ⟨_, isDifference_sub _ _ _, completes_flagsOnly rfl⟩, ⟨_, isDifference_sub _ _ _, completes_flagsOnly rfl⟩⟩

/-- Settles O30: the logical result replaces P0, leaves its flags only, or replaces the top after the pop. -/
theorem logicAndTestForms : Obligations.LogicAndTestForms := fun _ _ =>
  ⟨⟨_, isLogical_logic _, completes_replaceP0 rfl⟩, ⟨_, isLogical_logic _, completes_replaceP0 rfl⟩,
    ⟨_, isLogical_logic _, completes_replaceP0 rfl⟩, ⟨_, isLogical_logic _, completes_replaceP0 rfl⟩,
    ⟨_, isLogical_logic _, completes_replaceP0 rfl⟩, ⟨_, isLogical_logic _, completes_replaceP0 rfl⟩,
    ⟨_, isLogical_logic _, completes_flagsOnly rfl⟩, ⟨_, isLogical_logic _, completes_flagsOnly rfl⟩,
    ⟨_, isLogical_logic _, completes_flagsOnly rfl⟩,
    fun hr => ⟨⟨_, isLogical_logic _, completes_popReplace rfl hr⟩, ⟨_, isLogical_logic _, completes_popReplace rfl hr⟩,
      ⟨_, isLogical_logic _, completes_popReplace rfl hr⟩⟩⟩

/-- Settles O31: the mask of the low nibble of either operand, and the complement, whose C is left to the model. -/
theorem maskAndComplement : Obligations.MaskAndComplement := by
  intro s n
  obtain ⟨huv, huc, huo, huz, hus⟩ := maskOf_extract n
  obtain ⟨hpv, hpc, hpo, hpz, hps⟩ := maskOf_extract s.p0
  exact ⟨⟨_, huv, huc, huo, huz, hus, completes_replaceP0 rfl⟩, ⟨_, hpv, hpc, hpo, hpz, hps, completes_replaceP0 rfl⟩,
    ⟨_, completes_replaceP0_of_eq (complement_eq s.p0) rfl⟩⟩

/-- Settles O32: each shift is its number in P0. -/
theorem shiftsByOne : Obligations.ShiftsByOne :=
  ⟨decodeTableWord_of_encode [0, 0] rfl, decodeTableWord_of_encode [0, 0] rfl, decodeTableWord_of_encode [0, 0] rfl,
    decodeTableWord_of_encode [0, 0] rfl, decodeTableWord_of_encode [0, 0] rfl, fun s =>
    ⟨completes_replaceP0_of_eq (shiftLeft_eq s.p0) rfl, completes_replaceP0_of_eq (shiftRight_eq s.p0) rfl,
      completes_replaceP0_of_eq (shiftRightArith_eq s.p0) rfl,
      completes_replaceP0_of_eq (rotateLeft_eq s.p0 s.flags.c) rfl,
      completes_replaceP0_of_eq (rotateRight_eq s.p0 s.flags.c) rfl⟩⟩

/-- Settles O33: the negation is its number in P0; #8000 is its own negative. -/
theorem negateTwosComplement : Obligations.NegateTwosComplement :=
  ⟨decodeTableWord_of_encode [0, 0] rfl, fun s =>
    ⟨completes_replaceP0_of_eq (negate_eq s.p0) rfl, fun h => by simp [h]⟩⟩

/-- Settles O34: neither writes a flag, and XB is the number of the exchanged bytes. -/
theorem nopAndExchangeBytes : Obligations.NopAndExchangeBytes :=
  ⟨decodeTableWord_of_encode [0, 0] rfl, decodeTableWord_of_encode [0, 0] rfl, fun s =>
    ⟨completes_nowhere rfl rfl rfl, exchangeBytes_eq s.p0 ▸ completes_nowhere rfl rfl rfl⟩⟩

end Sys2Proof.Machine
end

section
/-! PROOFS. The stack, register and flag instructions of `41_stack_and_registers.md` that write no memory but by a spill
(O35, O39 to O42). -/

namespace Sys2Proof.Machine

/-! ## What a pop leaves alone of the other stack -/

section
variable {s : State} {k j : StackId}

theorem afterPop_stack_other (h : j ≠ k) : (s.afterPop k).stack j = s.stack j := by
  cases k with
  | param =>
    cases j with
    | param => exact absurd rfl h
    | ret => exact afterPop_param_rs s
  | ret =>
    cases j with
    | param => exact afterPop_ret_ps s
    | ret => exact absurd rfl h

theorem pushReady_afterPop_other (h : j ≠ k) : (s.afterPop k).pushReady j ↔ s.pushReady j := by
  rw [State.pushReady, State.hasWord, afterPop_stack_other h, afterPop_cfg]

theorem spillsTo_afterPop_other (h : j ≠ k) (a : Nat) : (s.afterPop k).spillsTo j a ↔ s.spillsTo j a := by
  rw [State.spillsTo, afterPop_stack_other h]

end

/-! ## A pop, and a pop followed by a push on the other stack -/

section
variable {i : Instr} {s : State} {k j : StackId}

theorem completes_pop (he : exec i s = complete s (do let (_, s1) ← pop k s; .ok s1.next2)) (hr : s.popReady k) :
    Completes i s { s.afterPop k with pc := s.pc + 2#16 } nowhere := by
  refine completes_nowhere he ?_ (afterPop_mem s k)
  rw [pop_of_ready hr]
  exact congrArg Except.ok (next2_eq (afterPop_pc s k))

/-- The pop is complete before the push (R191), and stores nothing, so the only bytes written are the push's spill. -/
theorem completes_pop_push (hjk : j ≠ k)
    (he : exec i s = complete s (do let (v, s1) ← pop k s; let s2 ← orHalt (push j v s1); .ok s2.next2))
    (hm : s.mem.wf = true) (hpop : s.popReady k) (hpush : s.pushReady j) :
    Completes i s { (s.afterPop k).afterPush j (s.stack k).regs.e0 with pc := s.pc + 2#16 } (s.spillsTo j) := by
  have hmem := afterPop_mem s k
  refine ⟨?_, fun a ha => ?_⟩
  · rw [he, pop_of_ready hpop, bind_ok]
    dsimp only
    rw [push_of_ready _ ((pushReady_afterPop_other hjk).2 hpush)]
    exact congrArg Host.Outcome.next (next2_eq ((afterPush_pc _ j _).trans (afterPop_pc s k)))
  · have hau : ¬ (s.afterPop k).spillsTo j a := mt (spillsTo_afterPop_other hjk a).1 ha
    exact (afterPush_read j _ a (hmem ▸ hm) hau).trans (by rw [hmem])

end

/-- Settles O39: a pop, and the two transfers, one from each stack to the other. -/
theorem deleteAndTransfers : Obligations.DeleteAndTransfers := fun _ hm =>
  ⟨completes_pop rfl, completes_pop_push (k := .param) (j := .ret) nofun rfl hm,
    completes_pop_push (k := .ret) (j := .param) nofun rfl hm⟩

/-! ## Registers permuted in place -/

/-- RTD undoes RTU (R197): the three registers have gone round once each way. -/
theorem exec_rtu_rtd_ps (s : State) : ∃ t u, exec .rtu s = .next t ∧ exec .rtd t = .next u ∧ u.ps = s.ps :=
  ⟨(s.setP012 s.p1 s.p2 s.p0).next2, ((s.setP012 s.p1 s.p2 s.p0).next2.setP012 s.p0 s.p1 s.p2).next2, rfl, rfl, rfl⟩

/-- Settles O35: each names its permutation outright, so it completes in every state. -/
theorem shufflesInPlace : Obligations.ShufflesInPlace :=
  ⟨decodeTableWord_of_encode [0, 0] rfl, decodeTableWord_of_encode [0, 0] rfl, decodeTableWord_of_encode [0, 0] rfl,
    decodeTableWord_of_encode [0, 0] rfl, fun s =>
    ⟨completes_nowhere rfl rfl rfl, completes_nowhere rfl rfl rfl, completes_nowhere rfl rfl rfl,
      completes_nowhere rfl rfl rfl, exec_rtu_rtd_ps s⟩⟩

/-! ## Single flags (R207, R208) -/

section
variable {m : FlagSel} {s : State}

/-- SET is refused for I and EE only (D30). -/
theorem completes_set (hi : m ≠ .i) (hee : m ≠ .ee) :
    Completes (.set m) s { s with pc := s.pc + 2#16, flags := s.flags.put m true } nowhere :=
  completes_nowhere (if_neg (not_or.2 ⟨hi, hee⟩)) rfl rfl

theorem completes_clear : Completes (.clear m) s { s with pc := s.pc + 2#16, flags := s.flags.put m false } nowhere :=
  completes_nowhere rfl rfl rfl

end

/-- Settles O40: none of the six is I or EE. -/
theorem setOneFlag : Obligations.SetOneFlag := fun _ =>
  ⟨completes_set nofun nofun, completes_set nofun nofun, completes_set nofun nofun, completes_set nofun nofun,
    completes_set nofun nofun, completes_set nofun nofun⟩

/-- In a table of words and instructions, row by row the bytes of the word begin with the encoding. -/
theorem decodeTableWord_of_table {φ : Type} {nbits : Nat} {table : List (Nat × φ)} (instr : φ → Instr)
    (rest : List Byte)
    (h : table.map (fun p => tableBytes nbits p.1) = table.map (fun p => encode (instr p.2) ++ rest)) :
    ∀ p ∈ table, decodeTableWord nbits p.1 = some (instr p.2) :=
  fun p hp => decodeTableWord_of_encode rest (List.map_inj_left.1 h p hp)

theorem decodeTableWord_of_error {nbits w : Nat} {e : DecodeError} (h : decode (tableBytes nbits w) = .error e) :
    decodeTableWord nbits w = none := by
  simp [decodeTableWord, h]

/-- A CLEAR with a selector of 8 or more has no flag to name (R114). -/
theorem decode_clear_undefined {b1 : Byte} (h : 0x8#4 ≤ hiNibble b1) (rest : List Byte) :
    decode (0xD5#8 :: b1 :: rest) = .error (.undefinedField 0xD5#8 b1) :=
  decode_short_error (b0 := 0xD5#8) rfl (flagField_undefined .clear h) rest

/-- Settles O41: the encodings, the undefined selectors, and the write of each flag. -/
theorem clearOneFlag : Obligations.ClearOneFlag := by
  refine ⟨decodeTableWord_of_table .clear [0, 0] rfl, fun w hw => ?undefined, fun s =>
    ⟨completes_clear, completes_clear, completes_clear, completes_clear, completes_clear, completes_clear,
      completes_clear, completes_clear⟩⟩
  case undefined =>
    have hword : ∀ w ∈ [0xD580, 0xD590, 0xD5A0, 0xD5B0, 0xD5C0, 0xD5D0, 0xD5E0, 0xD5F0],
        tableBytes 16 w = [0xD5, BitVec.ofNat 8 w, 0, 0] ∧ 0x8#4 ≤ hiNibble (BitVec.ofNat 8 w) := by decide
    obtain ⟨hbytes, hsel⟩ := hword w hw
    exact decodeTableWord_of_error (hbytes ▸ decode_clear_undefined hsel [0, 0])

/-! ## Condition to value -/

/-- Settles O42: the value is put into P0 in place, under either value of the condition. -/
theorem flagReplacesP0 : Obligations.FlagReplacesP0 :=
  ⟨fun k => decode_encode (.flag k) [], fun _ _ => completes_nowhere rfl rfl rfl⟩

end Sys2Proof.Machine
end

section
/-! PROOFS. The 4-byte conditional forms whose condition is not met (O44). -/

namespace Sys2Proof.Machine

/-- The path not met of the 4-byte loads, stores, inputs and outputs, whatever the path `met` would do. -/
theorem completes_setZ_next4_of_not_met {i : Instr} {s : State} {k : Cond} {met : Run State}
    (he : exec i s = complete s (if s.cond k then met else .ok (s.setZ false).next4)) (hk : s.cond k = false) :
    Completes i s { s with pc := s.pc + 4#16, flags := { s.flags with z := false } } nowhere :=
  completes_nowhere he ((if_neg (ne_true_of_eq_false hk)).trans (congrArg Except.ok (setZ_next4_eq rfl false))) rfl

/-- Settles O44: the nine paths not met are one. -/
theorem longFormsNotMetClearZ : Obligations.LongFormsNotMetClearZ := by
  intro s n k hk i hi
  simp only [List.mem_cons, List.not_mem_nil, or_false] at hi
  rcases hi with rfl | rfl | rfl | rfl | rfl | rfl | rfl | rfl | rfl
  all_goals exact completes_setZ_next4_of_not_met rfl hk

end Sys2Proof.Machine
end

section
/-! PROOFS. Control transfer (O49 to O51): the condition and the tests made before a transfer are peeled off, which
leaves a load of PC, a call or a pop. -/

namespace Sys2Proof.Machine

section
variable {i : Instr} {s u : State} {a back : Word} {k : Cond} {id : StackId}

/-! ## The loads of PC that go through -/

theorem setPc_of_even (ha : isOdd a = false) : setPc a u = .ok (u.goto a) := by simp [setPc, needEven_of_even ha]

theorem callPc_of_ready (ha : isOdd a = false) (hr : u.pushReady .ret) :
    callPc back a u = .ok ((u.afterPush .ret back).goto a) := by
  simp [callPc, needEven_of_even ha, push_of_ready back hr]

/-- The return is a pop of the return stack into PC (R206, R262). -/
theorem returnPc_eq_popInto (s : State) : returnPc s = popInto .ret .pc s := rfl

/-! ## The tests before a transfer -/

theorem exec_of_met {met notMet : Run State} (he : exec i s = complete s (if s.cond k then met else notMet))
    (hk : s.cond k = true) : exec i s = complete s met := by rw [he, if_pos hk]

theorem exec_of_not_met {met notMet : Run State} (he : exec i s = complete s (if s.cond k then met else notMet))
    (hk : s.cond k = false) : exec i s = complete s notMet := by rw [he, if_neg (ne_true_of_eq_false hk)]

/-- The underflow test of the jumps and calls through P0, which both paths pass (D4). -/
theorem exec_of_popReady {x : Run State} (he : exec i s = complete s (do needEntries id 1 s; x))
    (hr : s.popReady id) : exec i s = complete s x := by rw [he, needEntries_one_of_popReady hr, bind_ok]

theorem exec_of_even {x : Run State} (he : exec i s = complete s (do needEven a; x)) (ha : isOdd a = false) :
    exec i s = complete s x := by rw [he, needEven_of_even ha, bind_ok]

theorem exec_of_pop {f : Word × State → Run State} (he : exec i s = complete s (pop id s >>= f))
    (hr : s.popReady id) : exec i s = complete s (f ((s.stack id).regs.e0, s.afterPop id)) := by
  rw [he, pop_of_ready hr, bind_ok]

/-- The path met of the jumps and calls through P0, up to the state `s.afterPop .param`. -/
theorem exec_popTarget_met {f : Word × State → Run State} {notMet : Run State}
    (he : exec i s = complete s
      (do needEntries .param 1 s; if s.cond k then (do needEven a; pop .param s >>= f) else notMet))
    (hk : s.cond k = true) (hr : s.popReady .param) (ha : isOdd a = false) :
    exec i s = complete s (f (s.p0, s.afterPop .param)) :=
  exec_of_pop (exec_of_even (exec_of_met (exec_of_popReady he hr) hk) ha) hr

/-- The path not met of the jumps and calls through P0, whatever the path `met` would do (C7). -/
theorem completes_popTarget_not_met {met : Run State}
    (he : exec i s = complete s
      (do needEntries .param 1 s; if s.cond k then met else (do let (_, s1) ← pop .param s; .ok s1.next2)))
    (hk : s.cond k = false) (hr : s.popReady .param) :
    Completes i s { s.afterPop .param with pc := s.pc + 2#16 } nowhere :=
  completes_pop (exec_of_not_met (exec_of_popReady he hr) hk) hr

/-! ## The transfers -/

theorem completes_setPc (he : exec i s = complete s (setPc a s)) (ha : isOdd a = false) :
    Completes i s { s with pc := a } nowhere := completes_nowhere he (setPc_of_even ha) rfl

/-- A call from the state `u`, which is `s` or what a pop of the parameter stack made of it. -/
theorem completes_callPc (he : exec i s = complete s (callPc back a u)) (ha : isOdd a = false)
    (hrs : u.rs = s.rs) (hcfg : u.cfg = s.cfg) (hmem : u.mem = s.mem) (hm : s.mem.wf = true)
    (hr : s.pushReady .ret) :
    Completes i s { u.afterPush .ret back with pc := a } (s.spillsTo .ret) := by
  have hru : u.pushReady .ret := by simpa [State.pushReady, State.hasWord, hrs, hcfg] using hr
  refine ⟨?_, fun b hb => ?_⟩
  · rw [he, callPc_of_ready ha hru]
    rfl
  · have hbu : ¬ u.spillsTo .ret b := by simpa [State.spillsTo, hrs] using hb
    exact (afterPush_read .ret back b (hmem ▸ hm) hbu).trans (by rw [hmem])

theorem completes_call (he : exec i s = complete s (callPc back a s)) (hm : s.mem.wf = true)
    (hr : s.pushReady .ret) (ha : isOdd a = false) :
    Completes i s { s.afterPush .ret back with pc := a } (s.spillsTo .ret) :=
  completes_callPc he ha rfl rfl rfl hm hr

/-- The path met of the calls through P0, whose target is `target` of the entry popped. -/
theorem completes_popTarget_call (target : Word → Word) {notMet : Run State}
    (he : exec i s = complete s (do
      needEntries .param 1 s
      if s.cond k then (do
        needEven (target s.p0)
        let (d, s1) ← pop .param s
        callPc back (target d) s1) else notMet))
    (hm : s.mem.wf = true) (hk : s.cond k = true) (hp : s.popReady .param) (hr : s.pushReady .ret)
    (ha : isOdd (target s.p0) = false) :
    Completes i s { (s.afterPop .param).afterPush .ret back with pc := target s.p0 } (s.spillsTo .ret) :=
  completes_callPc (exec_popTarget_met he hk hp ha) ha (afterPop_param_rs s) (afterPop_cfg s _) (afterPop_mem s _) hm hr

/-- The short address as the statements write it (R269, R272). -/
theorem shortAddr_eq (x : BitVec 12) : shortAddr x = BitVec.ofNat 16 x.toNat := (BitVec.ofNat_toNat 16 x).symm

end

/-- Settles O49: a load of PC where the transfer is taken, which for cpJMP follows the pop. -/
theorem branchesAndJumps : Obligations.BranchesAndJumps := by
  intro s k ee x n
  refine ⟨fun hk => ?cBr, fun hk => ?cBrNot, ?sBr, fun hk => ?cJmp, fun hk => ?cJmpNot, fun hx => ?sJmp,
    fun hk hr ha => ?cpJmp, fun hk hr => ?cpJmpNot⟩
  case cBr => exact completes_setPc (exec_of_met rfl hk)
  case cBrNot => exact completes_nowhere (exec_of_not_met rfl hk) rfl rfl
  case sBr => exact completes_setPc rfl
  case cJmp => exact completes_setPc (exec_of_met rfl hk)
  case cJmpNot => exact completes_nowhere (exec_of_not_met rfl hk) rfl rfl
  case sJmp => exact shortAddr_eq x ▸ completes_setPc (a := shortAddr x) rfl hx
  case cpJmp => exact completes_nowhere (exec_popTarget_met rfl hk hr ha) rfl (afterPop_mem s .param)
  case cpJmpNot => exact completes_popTarget_not_met rfl hk hr

/-- Settles O50: a call where the transfer is taken, which for cpJSR and cpBSR follows the pop; cpBSR counts from
`pc0 + 4` (D29). -/
theorem calls : Obligations.Calls := by
  intro s k x n hm
  refine ⟨fun hr hx => ?sJsr, fun hr => ?sBsr, fun hk hr => ?cJsr, fun hk => ?cJsrNot, ?cpJsr, ?cpBsr,
    fun hk hp => ⟨?cpJsrNot, ?cpBsrNot⟩⟩
  case sJsr => exact shortAddr_eq x ▸ completes_call (a := shortAddr x) rfl hm hr hx
  case sBsr => exact completes_call rfl hm hr
  case cJsr => exact completes_call (exec_of_met rfl hk) hm hr
  case cJsrNot => exact completes_nowhere (exec_of_not_met rfl hk) rfl rfl
  case cpJsr => exact completes_popTarget_call (fun d => d) rfl hm
  case cpBsr => exact completes_popTarget_call (stackTarget s.pc) rfl hm
  case cpJsrNot => exact completes_popTarget_not_met rfl hk hp
  case cpBsrNot => exact completes_popTarget_not_met rfl hk hp

/-- cRTS taken is the return of `PC POPRS`, in every state: with its traps and halts. -/
theorem exec_cRts_of_met {s : State} {k : Cond} (hk : s.cond k = true) : exec (.cRts k) s = exec (.popRs .pc) s :=
  calc exec (.cRts k) s
    _ = complete s (returnPc s) := exec_of_met rfl hk
    _ = complete s (popInto .ret .pc s) := by rw [returnPc_eq_popInto]
    _ = exec (.popRs .pc) s := rfl

/-- Settles O51: taken it is `PC POPRS`, whose pop O38 says. -/
theorem returnFromSubroutine : Obligations.ReturnFromSubroutine := by
  intro s k
  refine ⟨fun hk hr ha => ?taken, fun hk => ?notTaken, exec_cRts_of_met⟩
  case taken => exact completes_popInto (exec_cRts_of_met hk) hr (fun _ => ha) rfl
  case notTaken => exact completes_nowhere (exec_of_not_met rfl hk) rfl rfl

end Sys2Proof.Machine
end

section
/-! PROOFS. The IPS support and system instructions (O54 to O57): the tests, reads, write-backs and pushes of an
instruction are peeled off one by one, which leaves its register updates. -/

namespace Sys2Proof.Machine

section
variable {i : Instr} {s u : State} {a p v : Word} {k : Cond} {id : StackId}

/-! ## What a report leaves to the accesses after it -/

theorem hasWord_edacReport : (s.edacReport a).hasWord p ↔ s.hasWord p := by
  rw [State.hasWord, State.edacReport_cfg]

theorem pushReady_edacReport : (s.edacReport a).pushReady id ↔ s.pushReady id := by
  rw [State.pushReady, State.edacReport_stack, hasWord_edacReport]

/-- A report neither reads nor writes the registers that PREPARE writes (R93). -/
theorem edacReport_of_prepared (u : State) (a pc hp ppc : Word) (z : Bool) :
    { u with pc := pc, hp := hp, ppc := ppc, flags := { u.flags with z := z } }.edacReport a
      = { u.edacReport a with
          pc := pc, hp := hp, ppc := ppc, flags := { (u.edacReport a).flags with z := z } } := by
  rcases he : u.env.edac with _ | ⟨_ | _, rest⟩ <;> simp [State.edacReport, he]

/-! ## The first operation of an instruction, done -/

theorem exec_of_read {f : Word × State → Run State}
    (he : exec i s = complete s (orHalt (memRead16 a u) >>= f)) (hw : u.hasWord a) :
    exec i s = complete s (f (u.mem.readWord a.toNat, u.edacReport a)) := by
  rw [he, memRead16_of_hasWord hw, orHalt_ok, bind_ok]

theorem exec_of_push {f : State → Run State}
    (he : exec i s = complete s (orHalt (push id v u) >>= f)) (hr : u.pushReady id) :
    exec i s = complete s (f (u.afterPush id v)) := by
  rw [he, push_of_ready v hr, orHalt_ok, bind_ok]

/-- The test for the device that EMULATE makes on both paths (R9, D34). -/
theorem exec_of_hasEmulate {absent x : Run State}
    (he : exec i s = complete s (if !s.cfg.hasEmulate then absent else x)) (hd : s.cfg.hasEmulate = true) :
    exec i s = complete s x := by rw [he, hd]; rfl

/-! ## DFX and 2BLIT -/

/-- The end of DFX and 2BLIT, from the state `u`, which is `s` or what the report of a read made of it. -/
theorem completes_push_setPpc
    (he : exec i s = complete s (do let s1 ← orHalt (push id v u); .ok (s1.setPpc p).next2))
    (hpc : u.pc = s.pc) (hmem : u.mem = s.mem) (hst : u.stack id = s.stack id) (hm : s.mem.wf = true)
    (hr : u.pushReady id) :
    Completes i s { u.afterPush id v with pc := s.pc + 2#16, ppc := p } (s.spillsTo id) := by
  refine ⟨?_, fun b hb => ?_⟩
  · rw [exec_of_push he hr]
    exact congrArg Host.Outcome.next (next2_eq (u := (u.afterPush id v).setPpc p) ((afterPush_pc u id v).trans hpc))
  · have hbu : ¬ u.spillsTo id b := by rwa [State.spillsTo, hst]
    exact (afterPush_read id v b (hmem ▸ hm) hbu).trans (by rw [hmem])

end

/-- Settles O54: DFX pushes, 2BLIT reads and pushes, JPPC reads. -/
theorem ipsListInstructions : Obligations.IpsListInstructions := by
  intro s hm
  refine ⟨fun hr => ?dfx, fun hw hr => ?twoBlit, fun hw => ?jppc⟩
  case dfx => exact completes_push_setPpc rfl rfl rfl rfl hm hr
  case twoBlit =>
    exact completes_push_setPpc (exec_of_read (i := .twoBlit) rfl hw) (State.edacReport_pc s _)
      (State.edacReport_mem s _) (State.edacReport_stack s _ _) hm (pushReady_edacReport.2 hr)
  case jppc =>
    exact completes_nowhere (exec_of_read rfl hw)
      (congrArg Except.ok (next2_eq (u := (s.edacReport s.ppc).setPpc _) (State.edacReport_pc s _)))
      (State.edacReport_mem s _)

/-! ## EMULATE, EXECUTE, PREPARE -/

section
variable {s : State} {k : Cond}

/-- EMULATE reads the header through PPC, then PC through the header (R313). -/
theorem completes_emulate (hk : s.cond k = true) (hd : s.cfg.hasEmulate = true) (hw : s.hasWord s.ppc)
    (hw' : s.hasWord (s.mem.readWord s.ppc.toNat))
    (ho : isOdd (s.mem.readWord (s.mem.readWord s.ppc.toNat).toNat) = false) :
    Completes (.emulate k) s { (s.edacReport s.ppc).edacReport (s.mem.readWord s.ppc.toNat) with
      pc := s.mem.readWord (s.mem.readWord s.ppc.toNat).toNat, ppc := s.ppc + 2#16
      hp := s.mem.readWord s.ppc.toNat + 2#16 } nowhere := by
  have hheader := exec_of_read (i := .emulate k) (exec_of_met (exec_of_hasEmulate rfl hd) hk) hw
  have htarget := exec_of_read hheader (hasWord_edacReport.2 hw')
  rw [State.edacReport_mem] at htarget
  exact completes_nowhere htarget (setPc_of_even ho) (by simp)

/-- EXECUTE reads PC through HP (R314). -/
theorem completes_execute (hk : s.cond k = true) (hw : s.hasWord s.hp)
    (ho : isOdd (s.mem.readWord s.hp.toNat) = false) :
    Completes (.execute k) s { s.edacReport s.hp with
      pc := s.mem.readWord s.hp.toNat, hp := s.hp + 2#16 } nowhere :=
  completes_nowhere (exec_of_read (exec_of_met rfl hk) hw) (setPc_of_even ho) (State.edacReport_mem s _)

/-- The state PREPARE leads to where its condition is met (R316). -/
def State.prepared (s : State) : State :=
  { s.edacReport s.ppc with
    pc := s.pc + 2#16, hp := s.mem.readWord s.ppc.toNat, ppc := s.ppc + 2#16
    flags := { (s.edacReport s.ppc).flags with z := true } }

theorem State.prepared_mem (s : State) : s.prepared.mem = s.mem := State.edacReport_mem s s.ppc

theorem completes_prepare (hk : s.cond k = true) (hw : s.hasWord s.ppc) :
    Completes (.prepare k) s s.prepared nowhere :=
  completes_nowhere (exec_of_read (exec_of_met rfl hk) hw)
    (congrArg Except.ok
      (setZ_next2_eq (u := ((s.edacReport s.ppc).setHp (s.mem.readWord s.ppc.toNat)).setPpc (s.ppc + 2#16))
        (State.edacReport_pc s _) true))
    s.prepared_mem

end

/-- Settles O55: the three with their condition met, and the three paths not met, which read nothing. -/
theorem ipsInnerInterpreter : Obligations.IpsInnerInterpreter := by
  intro s k
  refine ⟨completes_emulate, completes_execute, completes_prepare, fun hk hd => ?emulateNot, fun hk => ?executeNot,
    fun hk => ?prepareNot⟩
  case emulateNot => exact completes_nowhere (exec_of_not_met (exec_of_hasEmulate rfl hd) hk) rfl rfl
  case executeNot => exact completes_nowhere (exec_of_not_met rfl hk) rfl rfl
  case prepareNot =>
    exact completes_nowhere (exec_of_not_met rfl hk) (congrArg Except.ok (setZ_next2_eq rfl false)) rfl

/-- Settles O56: PREPARE leaves EMULATE's header in HP and `EQ` met, so EXECUTE makes EMULATE's second read; its report
does not see what PREPARE wrote. -/
theorem prepareThenExecuteIsEmulate : Obligations.PrepareThenExecuteIsEmulate := by
  intro s k hk hd hw hw' ho
  have hread : s.prepared.hasWord s.prepared.hp := hasWord_edacReport.2 hw'
  have heven : isOdd (s.prepared.mem.readWord s.prepared.hp.toNat) = false := by
    rw [s.prepared_mem]; exact ho
  obtain ⟨hprepare, -⟩ := completes_prepare hk hw
  obtain ⟨hexecute, -⟩ := completes_execute (s := s.prepared) (k := .eq) rfl hread heven
  obtain ⟨hemulate, -⟩ := completes_emulate hk hd hw hw' ho
  refine ⟨_, _, _, hprepare, hexecute, hemulate, ?_⟩
  have hreport := edacReport_of_prepared (s.edacReport s.ppc) s.prepared.hp s.prepared.pc s.prepared.hp
    s.prepared.ppc true
  rw [s.prepared_mem]
  exact congrArg (fun u : State => { u with
    pc := s.mem.readWord s.prepared.hp.toNat, hp := s.prepared.hp + 2#16 }) hreport

/-! ## REFRESH -/

/-- The word at an even address ends within the 64 KiB of addresses (R76). -/
theorem toNat_succ_lt_of_even {a : Word} (ha : isOdd a = false) : a.toNat + 1 < 65536 :=
  toNat_succ_of_even ha ▸ (a + 1#16).isLt

/-- The write-back of the word just read leaves the whole state as the read left it (D36). -/
theorem memWrite16_readWord {s : State} {a : Word} (hm : s.mem.wf = true) (hw : s.hasWord a) :
    memWrite16 a (s.mem.readWord a.toNat) s = .ok s := by
  rw [memWrite16_of_hasWord _ hw, Memory.writeWord_readWord hm (toNat_succ_lt_of_even hw.1)]

/-- The write-back to the word whose read has just been reported. -/
theorem exec_of_writeBack {i : Instr} {s : State} {a : Word} {f : State → Run State}
    (he : exec i s = complete s (orHalt (memWrite16 a (s.mem.readWord a.toNat) (s.edacReport a)) >>= f))
    (hm : s.mem.wf = true) (hw : s.hasWord a) : exec i s = complete s (f (s.edacReport a)) := by
  rw [← State.edacReport_mem s a] at he hm
  rw [he, memWrite16_readWord hm (hasWord_edacReport.2 hw), orHalt_ok, bind_ok]

/-- Settles O57: the read, and a write-back that changes nothing. -/
theorem refreshWashesOneWord : Obligations.RefreshWashesOneWord := by
  intro s k hm
  refine ⟨fun hk hw => ?met, fun hk => ?notMet⟩
  case met =>
    have hread := exec_of_read (i := .refresh k) (exec_of_met rfl hk) hw
    exact completes_nowhere (exec_of_writeBack hread hm hw)
      (congrArg Except.ok (next2_eq (u := (s.edacReport s.rr).setRr (s.rr + 2#16)) (State.edacReport_pc s _)))
      (State.edacReport_mem s _)
  case notMet => exact completes_nowhere (exec_of_not_met rfl hk) rfl rfl

end Sys2Proof.Machine
end

section
/-! PROOFS. The events of an instruction boundary (O10 to O13) and the underflow traps (O14): what a boundary presents is
handled in the order of R347, and a trap entry is one push on the return stack. -/

namespace Sys2Proof.Machine

/-! ## The entry of a trap or interrupt (R340) -/

section
variable {s : State} {saved vector : Word}

theorem trapEntry_of_ready (hr : s.pushReady .ret) : trapEntry saved vector s = .ok (s.afterTrap saved vector) := by
  rw [trapEntry, push_of_ready saved hr]
  rfl

/-- The entry stores to no byte but those its push spills to (R351). -/
theorem afterTrap_read {a : Nat} (hm : s.mem.wf = true) (ha : ¬ s.spillsTo .ret a) :
    (s.afterTrap saved vector).mem.read a = s.mem.read a := afterPush_read .ret saved a hm ha

end

/-! ## Underflow traps (R333, R334) -/

section
variable {i : Instr} {s : State}

/-- An instruction that underflows the return stack takes the trap and does nothing else (R334, R342). -/
theorem exec_of_returnUnderflows (h : returnUnderflows i s) : exec i s = settle (enterTrap .returnUnderflow s) := by
  have hneed (h0 : s.rs.ctr.toNat = 0) : needEntries .ret 1 s = .error (.trap .returnUnderflow) :=
    needEntries_of_lt (k := .ret) (Nat.lt_one_iff.2 h0)
  cases i
  case rtop => exact complete_trap_first (pop_empty (k := .ret) (BitVec.eq_of_toNat_eq h))
  case popRs => exact complete_trap_first (hneed h)
  case cRts =>
    obtain ⟨hk, h0⟩ := h
    exact complete_if_pos hk (complete_trap_first (hneed h0))
  all_goals exact h.elim

theorem completes_underflow (id : StackId) (he : exec i s = settle (enterTrap id.underflow s)) (hm : s.mem.wf = true)
    (hr : s.pushReady .ret) : Completes i s (s.afterTrap s.pc id.underflow.vector) (s.spillsTo .ret) :=
  ⟨by rw [he, enterTrap_underflow id hr, settle_ok], fun _ => afterTrap_read hm⟩

end

/-- Settles O14: whatever the instruction, its outcome is the trap's, which is a push that can be made. -/
theorem underflowTraps : Obligations.UnderflowTraps := fun _ _ hm hr =>
  ⟨fun h => completes_underflow .param (exec_of_paramUnderflows h) hm hr,
    fun h => completes_underflow .ret (exec_of_returnUnderflows h) hm hr⟩

/-! ## A boundary with RST (R339) -/

section
variable {s : State} {b : Boundary} {rest : List Boundary}

/-- RST is handled first and alone (R347). -/
theorem step_of_rst (hb : s.env.boundary = b :: rest) (hrst : b.rst = true) :
    step s = .next (resetEntry (s.setBoundary (leftover b rest))) := by
  have hboundary : boundary s = .ok (.resetTaken (resetEntry (s.setBoundary (leftover b rest)))) := by
    simp [boundary, hb, hrst]
  rw [step, hboundary]

theorem leftover_of_rst (ext int : Bool) :
    leftover ⟨true, ext, int⟩ rest = if ext = true ∨ int = true then ⟨false, ext, int⟩ :: rest else rest := by
  simp [leftover]

end

/-- Settles O10: the step is the reset entry. -/
theorem resetEntersAtZero : Obligations.ResetEntersAtZero := fun _ _ _ hb hrst =>
  ⟨_, step_of_rst hb hrst, rfl, rfl, rfl, rfl, rfl, rfl, rfl, rfl, rfl, rfl, rfl, rfl, fun _ => rfl⟩

/-! ## A boundary without RST -/

/-- The state in which INT is considered at a boundary without RST: EXT, where it is presented, has set E, and the script
has moved on (R338, R347). -/
def State.afterExt (s : State) (ext : Bool) (rest : List Boundary) : State :=
  { s with flags := { s.flags with e := s.flags.e || ext }, env := { s.env with boundary := rest } }

section
variable {s t u : State} {ext : Bool} {rest : List Boundary}

theorem externalEvent_eq_afterExt :
    (if ext then externalEvent (s.setBoundary rest) else s.setBoundary rest) = s.afterExt ext rest := by
  cases ext with
  | true => simp [externalEvent, State.setFlags, State.setBoundary, State.afterExt]
  | false => simp [State.setBoundary, State.afterExt]

theorem step_of_no_int (hb : s.env.boundary = ⟨false, ext, false⟩ :: rest) : step s = runInstr (s.afterExt ext rest) := by
  have hboundary : boundary s = .ok (.proceed (s.afterExt ext rest)) := by
    simp [boundary, hb, externalEvent_eq_afterExt]
  rw [step, hboundary]

/-- The instruction that follows a request INT runs in the state the request left (R347). -/
theorem step_of_int (hb : s.env.boundary = ⟨false, ext, true⟩ :: rest)
    (hint : interrupt (s.afterExt ext rest) = .ok t) : step s = runInstr t := by
  have hboundary : boundary s = .ok (.proceed t) := by
    simp [boundary, hb, externalEvent_eq_afterExt, hint, Except.map]
  rw [step, hboundary]

/-! ## The request INT (R337, R344) -/

theorem interrupt_of_enabled (hie : u.flags.ie = true) (hr : u.pushReady .ret) :
    interrupt u = .ok (({ u with flags := { u.flags with ie := false, i := true } } : State).afterTrap u.pc 0x0010#16) := by
  rw [interrupt, if_pos hie]
  exact trapEntry_of_ready hr

theorem interrupt_of_masked (hie : u.flags.ie = false) :
    interrupt u = .ok { u with flags := { u.flags with i := u.flags.i || u.cfg.intSetsIWhenMasked } } := by
  rw [interrupt, if_neg (Bool.eq_false_iff.1 hie)]
  cases hc : u.cfg.intSetsIWhenMasked with
  | true => simp [State.setFlags]
  | false => simp

end

/-- Settles O11: E is set in the state the instruction runs in; what is presented with RST becomes the next boundary. -/
theorem externalEventAndResetOrder : Obligations.ExternalEventAndResetOrder := by
  intro s rest
  refine ⟨fun hb => ?ext, fun ext int hb => ⟨_, step_of_rst hb rfl, leftover_of_rst ext int⟩⟩
  case ext => rw [step_of_no_int hb, State.afterExt, Bool.or_true]

/-- Settles O12: EXT and the flags do not reach the return stack, so the entry's push is that of the boundary. -/
theorem interruptTaken : Obligations.InterruptTaken := fun s ext rest hm hb hie hr =>
  ⟨_, step_of_int hb (interrupt_of_enabled (u := s.afterExt ext rest) hie hr), rfl,
    fun _ ha => afterTrap_read (s := { s.afterExt ext rest with flags := _ }) hm ha⟩

/-- Settles O13: a masked request may set I, and EXT has set E before it. -/
theorem interruptMasked : Obligations.InterruptMasked := fun s ext rest hb hie =>
  step_of_int hb (interrupt_of_masked (u := s.afterExt ext rest) hie)

end Sys2Proof.Machine
end
